-- ==== Sys2Proof/Word.lean ====
section
/-! DEFINITION. The word types of the engine, one per width the spec uses (00_scope.md R6, R7). -/

namespace Sys2Proof

/-- A microword, and one word of the ROM: 8 bits (R6 `WORD_W`). -/
abbrev Byte := BitVec 8

/-- The instruction register RI, an instruction slot number: 3 bits (R6 `RI_W`). -/
abbrev SlotWord := BitVec 3

/-- The cycle counter Rc: 2 bits (R6 `RC_W`). -/
abbrev CycleWord := BitVec 2

/-- An ALU operand, the ALU output, an input value: 4 bits (R6 `OPD_W`, `ALU_W`, `IN_W`). -/
abbrev Nibble := BitVec 4

/-- The command register CMD: 5 bits (R6 `CMD_W`). -/
abbrev CmdWord := BitVec 5

/-- The two command bits `cc = c1 c0` of a microword, c1 the higher (30_encoding.md R92). -/
abbrev CmdBits := BitVec 2

end Sys2Proof
end

