-- ==== Sys2Proof/Syntax.lean ====
section
/-! DEFINITION. The instructions of the engine: one constructor per row of the opcode table (64 microword operations and 32 ALU
commands), the two bus selectors, and the spec's pseudo-instructions. -/

namespace Sys2Proof

/-- The source a microword's `txId` selects, in the order of the selector values 0 to 7 (30_encoding.md R94). -/
inductive Source where
  /-- txId 0: the instruction register RI. -/
  | ri
  /-- txId 1: the general register A. -/
  | a
  /-- txId 2: the general register B. -/
  | b
  /-- txId 3: the general register C. -/
  | c
  /-- txId 4: ALUOUT after an ALU evaluation. -/
  | alu
  /-- txId 5: INBUF after one input read. -/
  | input
  /-- txId 6: unresolved, a defined no-op. -/
  | s6
  /-- txId 7: unresolved, a defined no-op. -/
  | s7
deriving DecidableEq, Repr

/-- The destination a microword's `rxId` selects, in the order of the selector values 0 to 7 (30_encoding.md R95). -/
inductive Dest where
  /-- rxId 0: the instruction register RI. -/
  | ri
  /-- rxId 1: the general register A. -/
  | a
  /-- rxId 2: the general register B. -/
  | b
  /-- rxId 3: the general register C. -/
  | c
  /-- rxId 4: the ALU operand register R1. -/
  | r1
  /-- rxId 5: the ALU operand register R2. -/
  | r2
  /-- rxId 6: the output side channel. -/
  | out
  /-- rxId 7: none, a defined no-op. -/
  | d7
deriving DecidableEq, Repr

/-- The two formats of the opcode table: a microword of 8 bits, which the dispatcher fetches (R90), and an ALU command of 5
bits, which an evaluation reads from CMD (R98). -/
inductive Format where
  /-- An 8-bit microword of the ROM. -/
  | microword
  /-- A 5-bit value of CMD. -/
  | aluCommand
deriving DecidableEq, Repr

/-- One constructor per row of spec/opcode_table.json. A microword operation carries its two command bits `cc` (R92); an ALU
command carries nothing, its operands being R1 and R2. -/
inductive Instr where
  /-- `MOV RI, RI` (txId 0, rxId 0), R240. -/
  | movRiRi (cc : CmdBits)
  /-- `MOV A, RI` (txId 0, rxId 1), R241. -/
  | movARi (cc : CmdBits)
  /-- `MOV B, RI` (txId 0, rxId 2), R242. -/
  | movBRi (cc : CmdBits)
  /-- `MOV C, RI` (txId 0, rxId 3), R243. -/
  | movCRi (cc : CmdBits)
  /-- `MOV R1, RI` (txId 0, rxId 4), R244. -/
  | movR1Ri (cc : CmdBits)
  /-- `MOV R2, RI` (txId 0, rxId 5), R245. -/
  | movR2Ri (cc : CmdBits)
  /-- `MOV OUT, RI` (txId 0, rxId 6), R246. -/
  | movOutRi (cc : CmdBits)
  /-- `MOV D7, RI` (txId 0, rxId 7), R247. -/
  | movD7Ri (cc : CmdBits)
  /-- `MOV RI, A` (txId 1, rxId 0), R248. -/
  | movRiA (cc : CmdBits)
  /-- `MOV A, A` (txId 1, rxId 1), R249. -/
  | movAA (cc : CmdBits)
  /-- `MOV B, A` (txId 1, rxId 2), R250. -/
  | movBA (cc : CmdBits)
  /-- `MOV C, A` (txId 1, rxId 3), R251. -/
  | movCA (cc : CmdBits)
  /-- `MOV R1, A` (txId 1, rxId 4), R252. -/
  | movR1A (cc : CmdBits)
  /-- `MOV R2, A` (txId 1, rxId 5), R253. -/
  | movR2A (cc : CmdBits)
  /-- `MOV OUT, A` (txId 1, rxId 6), R254. -/
  | movOutA (cc : CmdBits)
  /-- `MOV D7, A` (txId 1, rxId 7), R255. -/
  | movD7A (cc : CmdBits)
  /-- `MOV RI, B` (txId 2, rxId 0), R256. -/
  | movRiB (cc : CmdBits)
  /-- `MOV A, B` (txId 2, rxId 1), R257. -/
  | movAB (cc : CmdBits)
  /-- `MOV B, B` (txId 2, rxId 2), R258. -/
  | movBB (cc : CmdBits)
  /-- `MOV C, B` (txId 2, rxId 3), R259. -/
  | movCB (cc : CmdBits)
  /-- `MOV R1, B` (txId 2, rxId 4), R260. -/
  | movR1B (cc : CmdBits)
  /-- `MOV R2, B` (txId 2, rxId 5), R261. -/
  | movR2B (cc : CmdBits)
  /-- `MOV OUT, B` (txId 2, rxId 6), R262. -/
  | movOutB (cc : CmdBits)
  /-- `MOV D7, B` (txId 2, rxId 7), R263. -/
  | movD7B (cc : CmdBits)
  /-- `MOV RI, C` (txId 3, rxId 0), R264. -/
  | movRiC (cc : CmdBits)
  /-- `MOV A, C` (txId 3, rxId 1), R265. -/
  | movAC (cc : CmdBits)
  /-- `MOV B, C` (txId 3, rxId 2), R266. -/
  | movBC (cc : CmdBits)
  /-- `MOV C, C` (txId 3, rxId 3), R267. -/
  | movCC (cc : CmdBits)
  /-- `MOV R1, C` (txId 3, rxId 4), R268. -/
  | movR1C (cc : CmdBits)
  /-- `MOV R2, C` (txId 3, rxId 5), R269. -/
  | movR2C (cc : CmdBits)
  /-- `MOV OUT, C` (txId 3, rxId 6), R270. -/
  | movOutC (cc : CmdBits)
  /-- `MOV D7, C` (txId 3, rxId 7), R271. -/
  | movD7C (cc : CmdBits)
  /-- `MOV RI, ALU` (txId 4, rxId 0), R290. -/
  | movRiAlu (cc : CmdBits)
  /-- `MOV A, ALU` (txId 4, rxId 1), R291. -/
  | movAAlu (cc : CmdBits)
  /-- `MOV B, ALU` (txId 4, rxId 2), R292. -/
  | movBAlu (cc : CmdBits)
  /-- `MOV C, ALU` (txId 4, rxId 3), R293. -/
  | movCAlu (cc : CmdBits)
  /-- `MOV R1, ALU` (txId 4, rxId 4), R294. -/
  | movR1Alu (cc : CmdBits)
  /-- `MOV R2, ALU` (txId 4, rxId 5), R295. -/
  | movR2Alu (cc : CmdBits)
  /-- `MOV OUT, ALU` (txId 4, rxId 6), R296. -/
  | movOutAlu (cc : CmdBits)
  /-- `MOV D7, ALU` (txId 4, rxId 7), R297. -/
  | movD7Alu (cc : CmdBits)
  /-- `MOV RI, IN` (txId 5, rxId 0), R298. -/
  | movRiIn (cc : CmdBits)
  /-- `MOV A, IN` (txId 5, rxId 1), R299. -/
  | movAIn (cc : CmdBits)
  /-- `MOV B, IN` (txId 5, rxId 2), R300. -/
  | movBIn (cc : CmdBits)
  /-- `MOV C, IN` (txId 5, rxId 3), R301. -/
  | movCIn (cc : CmdBits)
  /-- `MOV R1, IN` (txId 5, rxId 4), R302. -/
  | movR1In (cc : CmdBits)
  /-- `MOV R2, IN` (txId 5, rxId 5), R303. -/
  | movR2In (cc : CmdBits)
  /-- `MOV OUT, IN` (txId 5, rxId 6), R304. -/
  | movOutIn (cc : CmdBits)
  /-- `MOV D7, IN` (txId 5, rxId 7), R305. -/
  | movD7In (cc : CmdBits)
  /-- `MOV RI, S6` (txId 6, rxId 0), R306. -/
  | movRiS6 (cc : CmdBits)
  /-- `MOV A, S6` (txId 6, rxId 1), R307. -/
  | movAS6 (cc : CmdBits)
  /-- `MOV B, S6` (txId 6, rxId 2), R308. -/
  | movBS6 (cc : CmdBits)
  /-- `MOV C, S6` (txId 6, rxId 3), R309. -/
  | movCS6 (cc : CmdBits)
  /-- `MOV R1, S6` (txId 6, rxId 4), R310. -/
  | movR1S6 (cc : CmdBits)
  /-- `MOV R2, S6` (txId 6, rxId 5), R311. -/
  | movR2S6 (cc : CmdBits)
  /-- `MOV OUT, S6` (txId 6, rxId 6), R312. -/
  | movOutS6 (cc : CmdBits)
  /-- `MOV D7, S6` (txId 6, rxId 7), R313. -/
  | movD7S6 (cc : CmdBits)
  /-- `MOV RI, S7` (txId 7, rxId 0), R314. -/
  | movRiS7 (cc : CmdBits)
  /-- `MOV A, S7` (txId 7, rxId 1), R315. -/
  | movAS7 (cc : CmdBits)
  /-- `MOV B, S7` (txId 7, rxId 2), R316. -/
  | movBS7 (cc : CmdBits)
  /-- `MOV C, S7` (txId 7, rxId 3), R317. -/
  | movCS7 (cc : CmdBits)
  /-- `MOV R1, S7` (txId 7, rxId 4), R318. -/
  | movR1S7 (cc : CmdBits)
  /-- `MOV R2, S7` (txId 7, rxId 5), R319. -/
  | movR2S7 (cc : CmdBits)
  /-- `MOV OUT, S7` (txId 7, rxId 6), R320. -/
  | movOutS7 (cc : CmdBits)
  /-- `MOV D7, S7` (txId 7, rxId 7), R321. -/
  | movD7S7 (cc : CmdBits)
  /-- CMD 0, pass-through zero, R143. -/
  | alu0PassThroughZero
  /-- CMD 1, divide, R144. -/
  | alu1Divide
  /-- CMD 2, multiply-minus-one, R145. -/
  | alu2MultiplyMinusOne
  /-- CMD 3, add, R146. -/
  | alu3Add
  /-- CMD 4, difference-of-squares, R147. -/
  | alu4DifferenceOfSquares
  /-- CMD 5, double, R148. -/
  | alu5Double
  /-- CMD 6, average (floor), R149. -/
  | alu6Average
  /-- CMD 7, multiply, R150. -/
  | alu7Multiply
  /-- CMD 8, modulo, R151. -/
  | alu8Modulo
  /-- CMD 9, halve, R152. -/
  | alu9Halve
  /-- CMD 10, (R1*R2)-(R1+R2), R153. -/
  | alu10ProductMinusSum
  /-- CMD 11, subtract, R154. -/
  | alu11Subtract
  /-- CMD 12, squared-difference, R155. -/
  | alu12SquaredDifference
  /-- CMD 13, identity(R1), R156. -/
  | alu13Identity
  /-- CMD 14, square(R1), R157. -/
  | alu14Square
  /-- CMD 15, decrement(R1), R158. -/
  | alu15Decrement
  /-- CMD 16, NOT-R1, R171. -/
  | alu16NotR1
  /-- CMD 17, NAND, R172. -/
  | alu17Nand
  /-- CMD 18, R2-implies-R1 variants, R173. -/
  | alu18R2ImpliesR1
  /-- CMD 19, constant-1, R174. -/
  | alu19ConstantOne
  /-- CMD 20, XOR, R175. -/
  | alu20Xor
  /-- CMD 21, XNOR, R176. -/
  | alu21Xnor
  /-- CMD 22, implication, R177. -/
  | alu22Implication
  /-- CMD 23, OR, R178. -/
  | alu23Or
  /-- CMD 24, NOR-of-implication, R179. -/
  | alu24NorOfImplication
  /-- CMD 25, NAND-of-implication, R180. -/
  | alu25NandOfImplication
  /-- CMD 26, AND, R181. -/
  | alu26And
  /-- CMD 27, XNOR(alt), R182. -/
  | alu27XnorAlt
  /-- CMD 28, NOT-R2, R183. -/
  | alu28NotR2
  /-- CMD 29, NOR, R184. -/
  | alu29Nor
  /-- CMD 30, XNOR, R185. -/
  | alu30Xnor
  /-- CMD 31, XNOR(alt), R186. -/
  | alu31XnorAlt
deriving DecidableEq, Repr

/-- The pseudo-instructions of the spec's own syntax (30_encoding.md R101). -/
inductive Pseudo where
  /-- `NOP`. -/
  | nop
  /-- `SHIFT cc`. -/
  | shift (cc : CmdBits)
  /-- `LDCMD k`. -/
  | ldcmd (k : CmdWord)
  /-- `IN dst [, cc]`. -/
  | inp (dst : Dest) (cc : CmdBits)
  /-- `OUT src`. -/
  | out (src : Source)
  /-- `JMP src`. -/
  | jmp (src : Source)
deriving DecidableEq, Repr

end Sys2Proof
end

