-- ==== Sys2Proof/WellFormed.lean ====
section
/-! DEFINITION. Which instructions may stand where. Every operand value of every instruction is legal (30_encoding.md R96, R97);
what can be wrong is the place: a microword stands in the ROM, an ALU command in CMD. -/

namespace Sys2Proof

/-- The format of an instruction: the `format` column of the opcode table. -/
def Instr.format (i : Instr) : Format :=
  match i with
  | .movRiRi _ => .microword
  | .movARi _ => .microword
  | .movBRi _ => .microword
  | .movCRi _ => .microword
  | .movR1Ri _ => .microword
  | .movR2Ri _ => .microword
  | .movOutRi _ => .microword
  | .movD7Ri _ => .microword
  | .movRiA _ => .microword
  | .movAA _ => .microword
  | .movBA _ => .microword
  | .movCA _ => .microword
  | .movR1A _ => .microword
  | .movR2A _ => .microword
  | .movOutA _ => .microword
  | .movD7A _ => .microword
  | .movRiB _ => .microword
  | .movAB _ => .microword
  | .movBB _ => .microword
  | .movCB _ => .microword
  | .movR1B _ => .microword
  | .movR2B _ => .microword
  | .movOutB _ => .microword
  | .movD7B _ => .microword
  | .movRiC _ => .microword
  | .movAC _ => .microword
  | .movBC _ => .microword
  | .movCC _ => .microword
  | .movR1C _ => .microword
  | .movR2C _ => .microword
  | .movOutC _ => .microword
  | .movD7C _ => .microword
  | .movRiAlu _ => .microword
  | .movAAlu _ => .microword
  | .movBAlu _ => .microword
  | .movCAlu _ => .microword
  | .movR1Alu _ => .microword
  | .movR2Alu _ => .microword
  | .movOutAlu _ => .microword
  | .movD7Alu _ => .microword
  | .movRiIn _ => .microword
  | .movAIn _ => .microword
  | .movBIn _ => .microword
  | .movCIn _ => .microword
  | .movR1In _ => .microword
  | .movR2In _ => .microword
  | .movOutIn _ => .microword
  | .movD7In _ => .microword
  | .movRiS6 _ => .microword
  | .movAS6 _ => .microword
  | .movBS6 _ => .microword
  | .movCS6 _ => .microword
  | .movR1S6 _ => .microword
  | .movR2S6 _ => .microword
  | .movOutS6 _ => .microword
  | .movD7S6 _ => .microword
  | .movRiS7 _ => .microword
  | .movAS7 _ => .microword
  | .movBS7 _ => .microword
  | .movCS7 _ => .microword
  | .movR1S7 _ => .microword
  | .movR2S7 _ => .microword
  | .movOutS7 _ => .microword
  | .movD7S7 _ => .microword
  | .alu0PassThroughZero => .aluCommand
  | .alu1Divide => .aluCommand
  | .alu2MultiplyMinusOne => .aluCommand
  | .alu3Add => .aluCommand
  | .alu4DifferenceOfSquares => .aluCommand
  | .alu5Double => .aluCommand
  | .alu6Average => .aluCommand
  | .alu7Multiply => .aluCommand
  | .alu8Modulo => .aluCommand
  | .alu9Halve => .aluCommand
  | .alu10ProductMinusSum => .aluCommand
  | .alu11Subtract => .aluCommand
  | .alu12SquaredDifference => .aluCommand
  | .alu13Identity => .aluCommand
  | .alu14Square => .aluCommand
  | .alu15Decrement => .aluCommand
  | .alu16NotR1 => .aluCommand
  | .alu17Nand => .aluCommand
  | .alu18R2ImpliesR1 => .aluCommand
  | .alu19ConstantOne => .aluCommand
  | .alu20Xor => .aluCommand
  | .alu21Xnor => .aluCommand
  | .alu22Implication => .aluCommand
  | .alu23Or => .aluCommand
  | .alu24NorOfImplication => .aluCommand
  | .alu25NandOfImplication => .aluCommand
  | .alu26And => .aluCommand
  | .alu27XnorAlt => .aluCommand
  | .alu28NotR2 => .aluCommand
  | .alu29Nor => .aluCommand
  | .alu30Xnor => .aluCommand
  | .alu31XnorAlt => .aluCommand

/-- An instruction is well formed in a format when the opcode table gives it that format: an ALU command is no word of the ROM,
and a microword is no value of CMD (R92, R93). -/
def Instr.wellFormedAs (f : Format) (i : Instr) : Bool :=
  decide (i.format = f)

end Sys2Proof
end

