-- ==== Sys2Proof/Decode.lean ====
section
/-! DEFINITION. Decoding of microwords and of ALU commands, the encoder, the opcode table's rows and the spec's own syntax
(30_encoding.md). -/

namespace Sys2Proof

/-- The source a selector value names (R94). -/
def sourceOf (tx : BitVec 3) : Source :=
  match tx.toNat with
  | 0 => .ri
  | 1 => .a
  | 2 => .b
  | 3 => .c
  | 4 => .alu
  | 5 => .input
  | 6 => .s6
  | _ => .s7

/-- The destination a selector value names (R95). -/
def destOf (rx : BitVec 3) : Dest :=
  match rx.toNat with
  | 0 => .ri
  | 1 => .a
  | 2 => .b
  | 3 => .c
  | 4 => .r1
  | 5 => .r2
  | 6 => .out
  | _ => .d7

/-- The operation a pair of selectors names, with the microword's command bits (R96). -/
def microwordOf (src : Source) (dst : Dest) (cc : CmdBits) : Instr :=
  match src, dst with
  | .ri, .ri => .movRiRi cc
  | .ri, .a => .movARi cc
  | .ri, .b => .movBRi cc
  | .ri, .c => .movCRi cc
  | .ri, .r1 => .movR1Ri cc
  | .ri, .r2 => .movR2Ri cc
  | .ri, .out => .movOutRi cc
  | .ri, .d7 => .movD7Ri cc
  | .a, .ri => .movRiA cc
  | .a, .a => .movAA cc
  | .a, .b => .movBA cc
  | .a, .c => .movCA cc
  | .a, .r1 => .movR1A cc
  | .a, .r2 => .movR2A cc
  | .a, .out => .movOutA cc
  | .a, .d7 => .movD7A cc
  | .b, .ri => .movRiB cc
  | .b, .a => .movAB cc
  | .b, .b => .movBB cc
  | .b, .c => .movCB cc
  | .b, .r1 => .movR1B cc
  | .b, .r2 => .movR2B cc
  | .b, .out => .movOutB cc
  | .b, .d7 => .movD7B cc
  | .c, .ri => .movRiC cc
  | .c, .a => .movAC cc
  | .c, .b => .movBC cc
  | .c, .c => .movCC cc
  | .c, .r1 => .movR1C cc
  | .c, .r2 => .movR2C cc
  | .c, .out => .movOutC cc
  | .c, .d7 => .movD7C cc
  | .alu, .ri => .movRiAlu cc
  | .alu, .a => .movAAlu cc
  | .alu, .b => .movBAlu cc
  | .alu, .c => .movCAlu cc
  | .alu, .r1 => .movR1Alu cc
  | .alu, .r2 => .movR2Alu cc
  | .alu, .out => .movOutAlu cc
  | .alu, .d7 => .movD7Alu cc
  | .input, .ri => .movRiIn cc
  | .input, .a => .movAIn cc
  | .input, .b => .movBIn cc
  | .input, .c => .movCIn cc
  | .input, .r1 => .movR1In cc
  | .input, .r2 => .movR2In cc
  | .input, .out => .movOutIn cc
  | .input, .d7 => .movD7In cc
  | .s6, .ri => .movRiS6 cc
  | .s6, .a => .movAS6 cc
  | .s6, .b => .movBS6 cc
  | .s6, .c => .movCS6 cc
  | .s6, .r1 => .movR1S6 cc
  | .s6, .r2 => .movR2S6 cc
  | .s6, .out => .movOutS6 cc
  | .s6, .d7 => .movD7S6 cc
  | .s7, .ri => .movRiS7 cc
  | .s7, .a => .movAS7 cc
  | .s7, .b => .movBS7 cc
  | .s7, .c => .movCS7 cc
  | .s7, .r1 => .movR1S7 cc
  | .s7, .r2 => .movR2S7 cc
  | .s7, .out => .movOutS7 cc
  | .s7, .d7 => .movD7S7 cc

/-- Decode of one microword: txId = w[7:5], rxId = w[4:2], cc = w[1:0] (R90, R91, R92; 43_dispatch.md R202). Every one of the
256 words is an operation (R97). -/
def decodeMicroword (w : Byte) : Instr :=
  microwordOf (sourceOf (w.extractLsb' 5 3)) (destOf (w.extractLsb' 2 3)) (w.extractLsb' 0 2)

/-- The ALU command a value of CMD selects (R98, 41_alu_arith.md R141). -/
def decodeAluCommand (cmd : CmdWord) : Instr :=
  match cmd.toNat with
  | 0 => .alu0PassThroughZero
  | 1 => .alu1Divide
  | 2 => .alu2MultiplyMinusOne
  | 3 => .alu3Add
  | 4 => .alu4DifferenceOfSquares
  | 5 => .alu5Double
  | 6 => .alu6Average
  | 7 => .alu7Multiply
  | 8 => .alu8Modulo
  | 9 => .alu9Halve
  | 10 => .alu10ProductMinusSum
  | 11 => .alu11Subtract
  | 12 => .alu12SquaredDifference
  | 13 => .alu13Identity
  | 14 => .alu14Square
  | 15 => .alu15Decrement
  | 16 => .alu16NotR1
  | 17 => .alu17Nand
  | 18 => .alu18R2ImpliesR1
  | 19 => .alu19ConstantOne
  | 20 => .alu20Xor
  | 21 => .alu21Xnor
  | 22 => .alu22Implication
  | 23 => .alu23Or
  | 24 => .alu24NorOfImplication
  | 25 => .alu25NandOfImplication
  | 26 => .alu26And
  | 27 => .alu27XnorAlt
  | 28 => .alu28NotR2
  | 29 => .alu29Nor
  | 30 => .alu30Xnor
  | _ => .alu31XnorAlt

/-- Why a list of bytes is no instruction. -/
inductive DecodeReject where
  /-- There is no whole word: "no partial words accepted" (R90). -/
  | partialWord
deriving DecidableEq, Repr

/-- Decode of the first word of a list of bytes, with the bytes after it: total, and rejecting the empty list by name. -/
def decode (bytes : List Byte) : Except DecodeReject (Instr × List Byte) :=
  match bytes with
  | [] => .error .partialWord
  | w :: rest => .ok (decodeMicroword w, rest)

/-- The instruction of an opcode-table row whose bits are w. A row of 8 bits or more is a microword; a row of fewer bits is an
ALU command of 5 bits. Both formats share their low values, and a word given with 8 bits is read as the microword, which is
what the ROM would hold (log entry 8). -/
def decodeTableWord (nbits w : Nat) : Option Instr :=
  if nbits < 8 then
    some (decodeAluCommand (BitVec.ofNat 5 (w % 2 ^ nbits)))
  else
    match decode [BitVec.ofNat 8 (w % 2 ^ nbits)] with
    | .ok (i, _) => some i
    | .error _ => none

/-- The selector value of a source (R94). -/
def Source.code (src : Source) : BitVec 3 :=
  match src with
  | .ri => 0#3
  | .a => 1#3
  | .b => 2#3
  | .c => 3#3
  | .alu => 4#3
  | .input => 5#3
  | .s6 => 6#3
  | .s7 => 7#3

/-- The selector value of a destination (R95). -/
def Dest.code (dst : Dest) : BitVec 3 :=
  match dst with
  | .ri => 0#3
  | .a => 1#3
  | .b => 2#3
  | .c => 3#3
  | .r1 => 4#3
  | .r2 => 5#3
  | .out => 6#3
  | .d7 => 7#3

/-- The fields an instruction is encoded from: a microword's two selectors and command bits, or a command number. -/
inductive Fields where
  /-- txId, rxId and cc of a microword (R90). -/
  | mov (src : Source) (dst : Dest) (cc : CmdBits)
  /-- The value of CMD (R98). -/
  | command (cmd : CmdWord)
deriving DecidableEq, Repr

/-- The fields of each instruction, from the opcode table. -/
def Instr.fields (i : Instr) : Fields :=
  match i with
  | .movRiRi cc => .mov .ri .ri cc
  | .movARi cc => .mov .ri .a cc
  | .movBRi cc => .mov .ri .b cc
  | .movCRi cc => .mov .ri .c cc
  | .movR1Ri cc => .mov .ri .r1 cc
  | .movR2Ri cc => .mov .ri .r2 cc
  | .movOutRi cc => .mov .ri .out cc
  | .movD7Ri cc => .mov .ri .d7 cc
  | .movRiA cc => .mov .a .ri cc
  | .movAA cc => .mov .a .a cc
  | .movBA cc => .mov .a .b cc
  | .movCA cc => .mov .a .c cc
  | .movR1A cc => .mov .a .r1 cc
  | .movR2A cc => .mov .a .r2 cc
  | .movOutA cc => .mov .a .out cc
  | .movD7A cc => .mov .a .d7 cc
  | .movRiB cc => .mov .b .ri cc
  | .movAB cc => .mov .b .a cc
  | .movBB cc => .mov .b .b cc
  | .movCB cc => .mov .b .c cc
  | .movR1B cc => .mov .b .r1 cc
  | .movR2B cc => .mov .b .r2 cc
  | .movOutB cc => .mov .b .out cc
  | .movD7B cc => .mov .b .d7 cc
  | .movRiC cc => .mov .c .ri cc
  | .movAC cc => .mov .c .a cc
  | .movBC cc => .mov .c .b cc
  | .movCC cc => .mov .c .c cc
  | .movR1C cc => .mov .c .r1 cc
  | .movR2C cc => .mov .c .r2 cc
  | .movOutC cc => .mov .c .out cc
  | .movD7C cc => .mov .c .d7 cc
  | .movRiAlu cc => .mov .alu .ri cc
  | .movAAlu cc => .mov .alu .a cc
  | .movBAlu cc => .mov .alu .b cc
  | .movCAlu cc => .mov .alu .c cc
  | .movR1Alu cc => .mov .alu .r1 cc
  | .movR2Alu cc => .mov .alu .r2 cc
  | .movOutAlu cc => .mov .alu .out cc
  | .movD7Alu cc => .mov .alu .d7 cc
  | .movRiIn cc => .mov .input .ri cc
  | .movAIn cc => .mov .input .a cc
  | .movBIn cc => .mov .input .b cc
  | .movCIn cc => .mov .input .c cc
  | .movR1In cc => .mov .input .r1 cc
  | .movR2In cc => .mov .input .r2 cc
  | .movOutIn cc => .mov .input .out cc
  | .movD7In cc => .mov .input .d7 cc
  | .movRiS6 cc => .mov .s6 .ri cc
  | .movAS6 cc => .mov .s6 .a cc
  | .movBS6 cc => .mov .s6 .b cc
  | .movCS6 cc => .mov .s6 .c cc
  | .movR1S6 cc => .mov .s6 .r1 cc
  | .movR2S6 cc => .mov .s6 .r2 cc
  | .movOutS6 cc => .mov .s6 .out cc
  | .movD7S6 cc => .mov .s6 .d7 cc
  | .movRiS7 cc => .mov .s7 .ri cc
  | .movAS7 cc => .mov .s7 .a cc
  | .movBS7 cc => .mov .s7 .b cc
  | .movCS7 cc => .mov .s7 .c cc
  | .movR1S7 cc => .mov .s7 .r1 cc
  | .movR2S7 cc => .mov .s7 .r2 cc
  | .movOutS7 cc => .mov .s7 .out cc
  | .movD7S7 cc => .mov .s7 .d7 cc
  | .alu0PassThroughZero => .command 0#5
  | .alu1Divide => .command 1#5
  | .alu2MultiplyMinusOne => .command 2#5
  | .alu3Add => .command 3#5
  | .alu4DifferenceOfSquares => .command 4#5
  | .alu5Double => .command 5#5
  | .alu6Average => .command 6#5
  | .alu7Multiply => .command 7#5
  | .alu8Modulo => .command 8#5
  | .alu9Halve => .command 9#5
  | .alu10ProductMinusSum => .command 10#5
  | .alu11Subtract => .command 11#5
  | .alu12SquaredDifference => .command 12#5
  | .alu13Identity => .command 13#5
  | .alu14Square => .command 14#5
  | .alu15Decrement => .command 15#5
  | .alu16NotR1 => .command 16#5
  | .alu17Nand => .command 17#5
  | .alu18R2ImpliesR1 => .command 18#5
  | .alu19ConstantOne => .command 19#5
  | .alu20Xor => .command 20#5
  | .alu21Xnor => .command 21#5
  | .alu22Implication => .command 22#5
  | .alu23Or => .command 23#5
  | .alu24NorOfImplication => .command 24#5
  | .alu25NandOfImplication => .command 25#5
  | .alu26And => .command 26#5
  | .alu27XnorAlt => .command 27#5
  | .alu28NotR2 => .command 28#5
  | .alu29Nor => .command 29#5
  | .alu30Xnor => .command 30#5
  | .alu31XnorAlt => .command 31#5

/-- The bits of an instruction in its format. -/
inductive Code where
  /-- One 8-bit microword. -/
  | microword (w : Byte)
  /-- One 5-bit ALU command. -/
  | aluCommand (cmd : CmdWord)
deriving DecidableEq, Repr

/-- The encoder: `txId ++ rxId ++ cc` for a microword (R100), the command number for an ALU command (R98). -/
def encode (i : Instr) : Code :=
  match i.fields with
  | .mov src dst cc => .microword (src.code ++ dst.code ++ cc)
  | .command cmd => .aluCommand cmd

/-- The instruction that bits of a format stand for. -/
def decodeCode (c : Code) : Instr :=
  match c with
  | .microword w => decodeMicroword w
  | .aluCommand cmd => decodeAluCommand cmd

/-- One row of the opcode table: its format, and the mask and match of its bits. -/
structure OpcodeRow where
  /-- The row's format. -/
  format : Format
  /-- The bits that select the row. -/
  mask : Byte
  /-- What those bits hold. -/
  pattern : Byte
deriving DecidableEq, Repr

/-- The row of spec/opcode_table.json for each instruction, copied from the table. -/
def Instr.row (i : Instr) : OpcodeRow :=
  match i with
  | .movRiRi _ => ⟨.microword, 0xFC, 0x00⟩
  | .movARi _ => ⟨.microword, 0xFC, 0x04⟩
  | .movBRi _ => ⟨.microword, 0xFC, 0x08⟩
  | .movCRi _ => ⟨.microword, 0xFC, 0x0C⟩
  | .movR1Ri _ => ⟨.microword, 0xFC, 0x10⟩
  | .movR2Ri _ => ⟨.microword, 0xFC, 0x14⟩
  | .movOutRi _ => ⟨.microword, 0xFC, 0x18⟩
  | .movD7Ri _ => ⟨.microword, 0xFC, 0x1C⟩
  | .movRiA _ => ⟨.microword, 0xFC, 0x20⟩
  | .movAA _ => ⟨.microword, 0xFC, 0x24⟩
  | .movBA _ => ⟨.microword, 0xFC, 0x28⟩
  | .movCA _ => ⟨.microword, 0xFC, 0x2C⟩
  | .movR1A _ => ⟨.microword, 0xFC, 0x30⟩
  | .movR2A _ => ⟨.microword, 0xFC, 0x34⟩
  | .movOutA _ => ⟨.microword, 0xFC, 0x38⟩
  | .movD7A _ => ⟨.microword, 0xFC, 0x3C⟩
  | .movRiB _ => ⟨.microword, 0xFC, 0x40⟩
  | .movAB _ => ⟨.microword, 0xFC, 0x44⟩
  | .movBB _ => ⟨.microword, 0xFC, 0x48⟩
  | .movCB _ => ⟨.microword, 0xFC, 0x4C⟩
  | .movR1B _ => ⟨.microword, 0xFC, 0x50⟩
  | .movR2B _ => ⟨.microword, 0xFC, 0x54⟩
  | .movOutB _ => ⟨.microword, 0xFC, 0x58⟩
  | .movD7B _ => ⟨.microword, 0xFC, 0x5C⟩
  | .movRiC _ => ⟨.microword, 0xFC, 0x60⟩
  | .movAC _ => ⟨.microword, 0xFC, 0x64⟩
  | .movBC _ => ⟨.microword, 0xFC, 0x68⟩
  | .movCC _ => ⟨.microword, 0xFC, 0x6C⟩
  | .movR1C _ => ⟨.microword, 0xFC, 0x70⟩
  | .movR2C _ => ⟨.microword, 0xFC, 0x74⟩
  | .movOutC _ => ⟨.microword, 0xFC, 0x78⟩
  | .movD7C _ => ⟨.microword, 0xFC, 0x7C⟩
  | .movRiAlu _ => ⟨.microword, 0xFC, 0x80⟩
  | .movAAlu _ => ⟨.microword, 0xFC, 0x84⟩
  | .movBAlu _ => ⟨.microword, 0xFC, 0x88⟩
  | .movCAlu _ => ⟨.microword, 0xFC, 0x8C⟩
  | .movR1Alu _ => ⟨.microword, 0xFC, 0x90⟩
  | .movR2Alu _ => ⟨.microword, 0xFC, 0x94⟩
  | .movOutAlu _ => ⟨.microword, 0xFC, 0x98⟩
  | .movD7Alu _ => ⟨.microword, 0xFC, 0x9C⟩
  | .movRiIn _ => ⟨.microword, 0xFC, 0xA0⟩
  | .movAIn _ => ⟨.microword, 0xFC, 0xA4⟩
  | .movBIn _ => ⟨.microword, 0xFC, 0xA8⟩
  | .movCIn _ => ⟨.microword, 0xFC, 0xAC⟩
  | .movR1In _ => ⟨.microword, 0xFC, 0xB0⟩
  | .movR2In _ => ⟨.microword, 0xFC, 0xB4⟩
  | .movOutIn _ => ⟨.microword, 0xFC, 0xB8⟩
  | .movD7In _ => ⟨.microword, 0xFC, 0xBC⟩
  | .movRiS6 _ => ⟨.microword, 0xFC, 0xC0⟩
  | .movAS6 _ => ⟨.microword, 0xFC, 0xC4⟩
  | .movBS6 _ => ⟨.microword, 0xFC, 0xC8⟩
  | .movCS6 _ => ⟨.microword, 0xFC, 0xCC⟩
  | .movR1S6 _ => ⟨.microword, 0xFC, 0xD0⟩
  | .movR2S6 _ => ⟨.microword, 0xFC, 0xD4⟩
  | .movOutS6 _ => ⟨.microword, 0xFC, 0xD8⟩
  | .movD7S6 _ => ⟨.microword, 0xFC, 0xDC⟩
  | .movRiS7 _ => ⟨.microword, 0xFC, 0xE0⟩
  | .movAS7 _ => ⟨.microword, 0xFC, 0xE4⟩
  | .movBS7 _ => ⟨.microword, 0xFC, 0xE8⟩
  | .movCS7 _ => ⟨.microword, 0xFC, 0xEC⟩
  | .movR1S7 _ => ⟨.microword, 0xFC, 0xF0⟩
  | .movR2S7 _ => ⟨.microword, 0xFC, 0xF4⟩
  | .movOutS7 _ => ⟨.microword, 0xFC, 0xF8⟩
  | .movD7S7 _ => ⟨.microword, 0xFC, 0xFC⟩
  | .alu0PassThroughZero => ⟨.aluCommand, 0x1F, 0x00⟩
  | .alu1Divide => ⟨.aluCommand, 0x1F, 0x01⟩
  | .alu2MultiplyMinusOne => ⟨.aluCommand, 0x1F, 0x02⟩
  | .alu3Add => ⟨.aluCommand, 0x1F, 0x03⟩
  | .alu4DifferenceOfSquares => ⟨.aluCommand, 0x1F, 0x04⟩
  | .alu5Double => ⟨.aluCommand, 0x1F, 0x05⟩
  | .alu6Average => ⟨.aluCommand, 0x1F, 0x06⟩
  | .alu7Multiply => ⟨.aluCommand, 0x1F, 0x07⟩
  | .alu8Modulo => ⟨.aluCommand, 0x1F, 0x08⟩
  | .alu9Halve => ⟨.aluCommand, 0x1F, 0x09⟩
  | .alu10ProductMinusSum => ⟨.aluCommand, 0x1F, 0x0A⟩
  | .alu11Subtract => ⟨.aluCommand, 0x1F, 0x0B⟩
  | .alu12SquaredDifference => ⟨.aluCommand, 0x1F, 0x0C⟩
  | .alu13Identity => ⟨.aluCommand, 0x1F, 0x0D⟩
  | .alu14Square => ⟨.aluCommand, 0x1F, 0x0E⟩
  | .alu15Decrement => ⟨.aluCommand, 0x1F, 0x0F⟩
  | .alu16NotR1 => ⟨.aluCommand, 0x1F, 0x10⟩
  | .alu17Nand => ⟨.aluCommand, 0x1F, 0x11⟩
  | .alu18R2ImpliesR1 => ⟨.aluCommand, 0x1F, 0x12⟩
  | .alu19ConstantOne => ⟨.aluCommand, 0x1F, 0x13⟩
  | .alu20Xor => ⟨.aluCommand, 0x1F, 0x14⟩
  | .alu21Xnor => ⟨.aluCommand, 0x1F, 0x15⟩
  | .alu22Implication => ⟨.aluCommand, 0x1F, 0x16⟩
  | .alu23Or => ⟨.aluCommand, 0x1F, 0x17⟩
  | .alu24NorOfImplication => ⟨.aluCommand, 0x1F, 0x18⟩
  | .alu25NandOfImplication => ⟨.aluCommand, 0x1F, 0x19⟩
  | .alu26And => ⟨.aluCommand, 0x1F, 0x1A⟩
  | .alu27XnorAlt => ⟨.aluCommand, 0x1F, 0x1B⟩
  | .alu28NotR2 => ⟨.aluCommand, 0x1F, 0x1C⟩
  | .alu29Nor => ⟨.aluCommand, 0x1F, 0x1D⟩
  | .alu30Xnor => ⟨.aluCommand, 0x1F, 0x1E⟩
  | .alu31XnorAlt => ⟨.aluCommand, 0x1F, 0x1F⟩

/-- Bits fit a row when they have its format and hold the row's pattern under its mask (R96). -/
def Code.fits (c : Code) (r : OpcodeRow) : Bool :=
  match c, r.format with
  | .microword w, .microword => w &&& r.mask == r.pattern
  | .aluCommand cmd, .aluCommand => cmd.setWidth 8 &&& r.mask == r.pattern
  | _, _ => false

/-- The microwords a pseudo-instruction expands to, in order (R101). -/
def Pseudo.expand (p : Pseudo) : List Instr :=
  match p with
  | .nop => [.movAA 0]
  | .shift cc => [.movRiRi cc]
  | .ldcmd k => [.movRiRi (k.extractLsb' 4 2), .movRiRi (k.extractLsb' 2 2), .movRiRi (k.extractLsb' 0 2)]
  | .inp dst cc => [microwordOf .input dst cc]
  | .out src => [microwordOf src .out 0]
  | .jmp src => [microwordOf src .ri 0]

/-- The name of a source in the spec's syntax (R100). -/
def Source.name (src : Source) : String :=
  match src with
  | .ri => "RI"
  | .a => "A"
  | .b => "B"
  | .c => "C"
  | .alu => "ALU"
  | .input => "IN"
  | .s6 => "S6"
  | .s7 => "S7"

/-- The name of a destination in the spec's syntax (R100). -/
def Dest.name (dst : Dest) : String :=
  match dst with
  | .ri => "RI"
  | .a => "A"
  | .b => "B"
  | .c => "C"
  | .r1 => "R1"
  | .r2 => "R2"
  | .out => "OUT"
  | .d7 => "D7"

/-- Two command bits as two binary digits (R100). -/
def cmdBitsText (cc : CmdBits) : String :=
  (if cc.getLsbD 1 then "1" else "0") ++ (if cc.getLsbD 0 then "1" else "0")

/-- A microword in the spec's syntax, `MOV <dst>, <src>, <cc>` (R100); an ALU command has no text of its own there. -/
def Instr.text (i : Instr) : Option String :=
  match i.fields with
  | .mov src dst cc => some ("MOV " ++ dst.name ++ ", " ++ src.name ++ ", " ++ cmdBitsText cc)
  | .command _ => none

end Sys2Proof
end

