-- ==== Sys2Proof/Machine/BitRegister.lean ====
section
/-! DEFINITION. The BitRegister operations, for a register of any width (40_bitregister.md R120-R127). -/

namespace Sys2Proof.Machine

/-- `shiftIn(b)`: drop the most significant bit, move the others up, and append b at the low end (R121). -/
def BitRegister.shiftIn {w : Nat} (x : BitVec w) (b : Bool) : BitVec w :=
  BitVec.ofNat w (x.toNat * 2 + b.toNat)

/-- `parallelLoad` of a value into a register of width w: right-aligned, a wider source truncated and a narrower one
zero-extended (R122). A self-load is the caller's to leave out (43_dispatch.md R206). -/
def BitRegister.parallelLoad (w : Nat) (v : Nat) : BitVec w :=
  BitVec.ofNat w v

/-- `increment()`: add 1, wrapping to zero with no carry-out (R123). -/
def BitRegister.increment {w : Nat} (x : BitVec w) : BitVec w :=
  x + BitVec.ofNat w 1

/-- `toValue()`: the unsigned value, position 0 most significant (R124). -/
def BitRegister.toValue {w : Nat} (x : BitVec w) : Nat :=
  x.toNat

/-- `fromValue(v)`: v mod 2^w with the non-negative remainder, v any integer (R124). -/
def BitRegister.fromValue (w : Nat) (v : Int) : BitVec w :=
  BitVec.ofInt w v

/-- `get(i)`: the bit of weight 2^i; none, a refused access, for an index outside the register (R125, D22). Log entry 11. -/
def BitRegister.get {w : Nat} (x : BitVec w) (i : Nat) : Option Bool :=
  if i < w then some (x.getLsbD i) else none

/-- `set(i, b)`: write the bit of weight 2^i; none, a refused access, for an index outside the register (R125, D22). -/
def BitRegister.set {w : Nat} (x : BitVec w) (i : Nat) (b : Bool) : Option (BitVec w) :=
  if i < w then some (BitVec.ofFnLE fun j : Fin w => if j.val = i then b else x.getLsbD j.val) else none

/-- The dispatcher's two-bit command shift, c1 then c0 (R127, 43_dispatch.md R208). -/
def BitRegister.shift2 (cmd : CmdWord) (cc : CmdBits) : CmdWord :=
  BitRegister.shiftIn (BitRegister.shiftIn cmd (cc.getLsbD 1)) (cc.getLsbD 0)

end Sys2Proof.Machine
end

