-- ==== Sys2Proof/Config.lean ====
section
/-! DEFINITION. What an implementation of the engine fixes: the types of the parameters GP_W and LOGIC_TABLE with the spec's
defaults (00_scope.md R8), and the free input answers. -/

namespace Sys2Proof

/-- The parameter GP_W, the width of A, B and C: 2, 3, 4 or 5 (00_scope.md R7, R8, decision D1). -/
inductive GpWidth where
  /-- 2 bits. -/
  | two
  /-- 3 bits. -/
  | three
  /-- 4 bits, the spec's default. -/
  | four
  /-- 5 bits. -/
  | five
deriving DecidableEq, Repr

/-- The width as a number of bits (R7). -/
def GpWidth.bits (g : GpWidth) : Nat :=
  match g with
  | .two => 2
  | .three => 3
  | .four => 4
  | .five => 5

/-- The spec's default for GP_W (R7, decision D1). Log entry 1. -/
def GpWidth.specDefault : GpWidth := .four

/-- A general register's word, of the widest GP_W: the register holds a value below 2^GP_W, and the bits above read 0 in every
consistent state (R7). Log entry 1. -/
abbrev GpWord := BitVec 5

/-- What the input supplier answers when it has no listed answer ready: answer number n is a free value, nothing says which
(60_exceptions.md R343, 93_implementation_defined.md I4). Log entry 3; safe. -/
opaque Config.inputAnswer : Nat → Nibble

/-- The truth table of a two-input Boolean function: its values at (a, b) = (0,0), (0,1), (1,0), (1,1), a a bit of R1 and b
the bit of R2 of the same weight (42_alu_logic.md, R188). -/
structure TruthTable where
  /-- The value at (0,0). -/
  f00 : Bool
  /-- The value at (0,1). -/
  f01 : Bool
  /-- The value at (1,0). -/
  f10 : Bool
  /-- The value at (1,1). -/
  f11 : Bool
deriving DecidableEq, Repr

/-- The parameter LOGIC_TABLE: the truth tables of the six logic commands whose meaning the source lost (R188). -/
structure LogicTable where
  /-- k = 2, CMD 18 (R173). -/
  k2 : TruthTable
  /-- k = 6, CMD 22 (R177). -/
  k6 : TruthTable
  /-- k = 8, CMD 24 (R179). -/
  k8 : TruthTable
  /-- k = 9, CMD 25 (R180). -/
  k9 : TruthTable
  /-- k = 11, CMD 27 (R182). -/
  k11 : TruthTable
  /-- k = 15, CMD 31 (R186). -/
  k15 : TruthTable
deriving DecidableEq, Repr

/-- The spec's defaults for LOGIC_TABLE: 1011, 1101, 0010, 0100, 1001, 1001 (R188, decision D10). Log entry 2. -/
def LogicTable.specDefault : LogicTable where
  k2 := ⟨true, false, true, true⟩
  k6 := ⟨true, true, false, true⟩
  k8 := ⟨false, false, true, false⟩
  k9 := ⟨false, true, false, false⟩
  k11 := ⟨true, false, false, true⟩
  k15 := ⟨true, false, false, true⟩

end Sys2Proof
end

