-- ==== Sys2Proof/Machine/State.lean ====
section
/-! DEFINITION. The state of the engine as plain data (10_state.md R20), its reset value (70_reset_and_hazards.md R370), and the
reasons a step can stop. -/

namespace Sys2Proof.Machine

/-- The microcode store: the words that are not zero, as (linear index 4*RI + Rc, word) pairs with rising indices. An unlisted
index reads as the zero word (20_memory.md R62, R64). Log entry 10. -/
abbrev Memory := List Host.Cell

/-- The record of the engine's one fault, DivisionByZero(ri, rc, cmd): the address of the faulting microword and the value of
CMD (60_exceptions.md R340). -/
structure DivisionByZero where
  /-- RI at the faulting step. -/
  ri : SlotWord
  /-- Rc at the faulting step. -/
  rc : CycleWord
  /-- CMD at the faulting step. -/
  cmd : CmdWord
deriving DecidableEq, Repr

/-- One event of the output side channel: the source selector, the source's width and its value (60_exceptions.md R344). -/
structure OutputEvent where
  /-- The source selector txId. -/
  tx : BitVec 3
  /-- The width of the source. -/
  width : Nat
  /-- The value emitted, below 2^width. -/
  value : Nat
deriving DecidableEq, Repr

/-- Everything the spec gives the machine (R20), the output sequence (R344), the parameters GP_W and LOGIC_TABLE (00_scope.md
R8), and the model's own record of the input supplier (R343, log entry 3). -/
structure State where
  /-- RI, the instruction register (R22). -/
  ri : SlotWord
  /-- Rc, the cycle counter (R23). -/
  rc : CycleWord
  /-- A, a general register (R24). -/
  a : GpWord
  /-- B, a general register (R24). -/
  b : GpWord
  /-- C, a general register (R24). -/
  c : GpWord
  /-- R1, the first ALU operand (R25). -/
  r1 : Nibble
  /-- R2, the second ALU operand (R25). -/
  r2 : Nibble
  /-- CMD, the command register (R26). -/
  cmd : CmdWord
  /-- ALUOUT, the ALU output register (R27). -/
  aluout : Nibble
  /-- INBUF, the input buffer (R28). -/
  inbuf : Nibble
  /-- halted, the terminal condition (R31). -/
  halted : Bool
  /-- fault, the sticky fault status (R32). -/
  fault : Option DivisionByZero
  /-- ROM, the microcode store (R60, R61). -/
  rom : Memory
  /-- The output sequence, oldest event first (R344). -/
  output : List OutputEvent
  /-- GP_W, the width of A, B and C, a parameter no step changes (00_scope.md R7, R8). Log entry 1. -/
  gpWidth : GpWidth
  /-- LOGIC_TABLE, a parameter no step changes (R188). Log entry 2. -/
  logicTable : LogicTable
  /-- The model's own: the answers the input supplier has ready, the next one first (R343). Log entry 3. -/
  inputs : List Nibble
  /-- The model's own: whether the supplier gives nothing after the listed answers (I5). Log entry 3. -/
  supplyEnds : Bool
  /-- The model's own: how many answers were taken; the index of the free answer. Log entry 3. -/
  inputsTaken : Nat
deriving DecidableEq, Repr

/-- Why a step has no successor state. -/
inductive Fault where
  /-- The supplier gives no answer to the input read of this step: the step does not complete, "stuck, not faulted" in the
  spec's words (60_exceptions.md R343, I5). Raised by every microword with source IN when no answer is listed and the supply
  ends. Safe: the model stops where the hardware waits without limit. Log entry 4. -/
  | waitsForInput
deriving DecidableEq, Repr

/-- Why an instruction has no meaning. -/
inductive Refusal where
  /-- The instruction has no meaning in exec yet. Raised by an arm of exec alone; no arm does. Safe. -/
  | notModelled (mnemonic : String)
deriving DecidableEq, Repr

/-- What a step answers. -/
abbrev Result := Host.Outcome State Fault Refusal

/-- The machine right after reset: every register 0, not halted, no fault, no output, and a ROM in which nothing was loaded, so
that every word is zero (R370, R64). The last five fields are the log's: entries 1, 2 and 3. -/
def State.reset : State where
  ri := 0
  rc := 0
  a := 0
  b := 0
  c := 0
  r1 := 0
  r2 := 0
  cmd := 0
  aluout := 0
  inbuf := 0
  halted := false
  fault := none
  rom := []
  output := []
  gpWidth := GpWidth.specDefault
  logicTable := LogicTable.specDefault
  inputs := []
  supplyEnds := false
  inputsTaken := 0

end Sys2Proof.Machine
end

