-- ==== Sys2Proof/Machine/Ops.lean ====
section
/-! DEFINITION. The named operations over the ROM and the state: the address decoder, the fault, the reset request, the command
shift, the counter advance, the halt test, the input read and the output emit. -/

namespace Sys2Proof.Machine

/-- What an index of the ROM reads as when the image gave it no word: the zero-initialized default (20_memory.md R64). -/
def Memory.unlisted : Byte := 0

/-- The word at a linear index. -/
def Memory.read (m : Memory) (n : Nat) : Byte :=
  match m with
  | [] => Memory.unlisted
  | (k, v) :: rest => if k = n then v else Memory.read rest n

/-- The store with one word replaced, in canonical form: an index that comes to hold the default is not listed. Only the loader
writes the ROM (R63, R64). -/
def Memory.write (m : Memory) (n : Nat) (v : Byte) : Memory :=
  match m with
  | [] => if v = Memory.unlisted then [] else [(n, v)]
  | (k, x) :: rest =>
    if n < k then
      if v = Memory.unlisted then (k, x) :: rest else (n, v) :: (k, x) :: rest
    else if n = k then
      if v = Memory.unlisted then rest else (n, v) :: rest
    else (k, x) :: Memory.write rest n v

/-- Canonical form from a lower bound on: indices rise, lie below the ROM size 32, and no listed word is the default. -/
def Memory.wfFrom (lo : Nat) (m : Memory) : Bool :=
  match m with
  | [] => true
  | (k, v) :: rest => decide (lo ≤ k) && decide (k < 32) && decide (v ≠ Memory.unlisted) && Memory.wfFrom (k + 1) rest

/-- The ROM is in canonical form. -/
def Memory.wf (m : Memory) : Bool :=
  Memory.wfFrom 0 m

/-- The linear index of a microword, row-major (R62). -/
def romIndex (ri : SlotWord) (rc : CycleWord) : Nat :=
  4 * ri.toNat + rc.toNat

/-- The ROM address decoder `RomRead(ri, rc)`: always succeeds (R62). -/
def romRead (rom : Memory) (ri : SlotWord) (rc : CycleWord) : Byte :=
  rom.read (romIndex ri rc)

/-- The microword the next step executes (43_dispatch.md R201). -/
def fetch (s : State) : Byte :=
  romRead s.rom s.ri s.rc

/-- Raise DivisionByZero: record the address and CMD, and nothing else (60_exceptions.md R340). There is no trap entry beyond
this record (R349). Log entry 6. -/
def raiseDivisionByZero (s : State) : State :=
  { s with fault := some ⟨s.ri, s.rc, s.cmd⟩ }

/-- The reset request, the only way out of a fault or of the halted state: every item of R370 but the ROM, which keeps its
contents (70_reset_and_hazards.md R371, 60_exceptions.md R350). The parameters GP_W and LOGIC_TABLE and the input supplier are
not the engine's and stay. Log entry 12. -/
def resetRequest (s : State) : State :=
  { State.reset with
    rom := s.rom
    gpWidth := s.gpWidth
    logicTable := s.logicTable
    inputs := s.inputs
    supplyEnds := s.supplyEnds
    inputsTaken := s.inputsTaken }

/-- The command shift of two bits into CMD (43_dispatch.md R208). -/
def shiftCommand (cc : CmdBits) (s : State) : State :=
  { s with cmd := BitRegister.shift2 s.cmd cc }

/-- The counter advance: increment Rc, and RI when Rc wrapped to 0 (43_dispatch.md R209). -/
def advance (s : State) : State :=
  { s with
    rc := BitRegister.increment s.rc
    ri := if BitRegister.increment s.rc = 0 then BitRegister.increment s.ri else s.ri }

/-- The halt test after the advance: at the origin the engine is halted, elsewhere halted is unchanged (43_dispatch.md R210). -/
def haltTest (s : State) : State :=
  { s with halted := (s.rc == 0 && s.ri == 0) || s.halted }

/-- The end of every step that completes: the advance, then the halt test (R209, R210). -/
def finish (s : State) : State :=
  haltTest (advance s)

/-- `Emit(tx, w, v)`: append one event to the output sequence (60_exceptions.md R344). -/
def emit (tx : BitVec 3) (width value : Nat) (s : State) : State :=
  { s with output := s.output ++ [⟨tx, width, value⟩] }

/-- `InRead()` into INBUF: take the next listed answer; with none listed, a free answer, or none where the supply ends
(60_exceptions.md R343, 43_dispatch.md R204). Log entries 3 and 4. -/
def inRead (s : State) : Option State :=
  match s.inputs with
  | v :: rest => some { s with inbuf := v, inputs := rest, inputsTaken := s.inputsTaken + 1 }
  | [] =>
    if s.supplyEnds then none
    else some { s with inbuf := Config.inputAnswer s.inputsTaken, inputsTaken := s.inputsTaken + 1 }

/-- The ALU's write of its output register, the value reduced modulo 16 (41_alu_arith.md R142). -/
def writeAluout (r : Int) (s : State) : State :=
  { s with aluout := BitRegister.fromValue 4 r }

end Sys2Proof.Machine
end

