-- ==== Sys2Proof/Machine/AluArith.lean ====
section
/-! DEFINITION. The 16 arithmetic commands of the ALU, CMD 0 to 15 (41_alu_arith.md). Each reads R1 and R2 as unsigned integers,
computes without bound, and writes ALUOUT modulo 16 (R140, R142); divide and modulo by zero raise the fault (R159). -/

namespace Sys2Proof.Machine

/-- CMD 0, pass-through zero (R143, reading D9). -/
def execAlu0PassThroughZero (s : State) : Result :=
  .next (writeAluout 0 s)

/-- CMD 1, divide (R144, reading D9). -/
def execAlu1Divide (s : State) : Result :=
  if s.r2 = 0 then .next (raiseDivisionByZero s)
  else .next (writeAluout (s.r1.toNat / s.r2.toNat : Nat) s)

/-- CMD 2, multiply-minus-one (R145, reading D9). -/
def execAlu2MultiplyMinusOne (s : State) : Result :=
  .next (writeAluout ((s.r1.toNat : Int) * s.r2.toNat - 1) s)

/-- CMD 3, add (R146). -/
def execAlu3Add (s : State) : Result :=
  .next (writeAluout ((s.r1.toNat : Int) + s.r2.toNat) s)

/-- CMD 4, difference-of-squares (R147, reading D9). -/
def execAlu4DifferenceOfSquares (s : State) : Result :=
  .next (writeAluout ((s.r1.toNat : Int) * s.r1.toNat - s.r2.toNat * s.r2.toNat) s)

/-- CMD 5, double (R148, reading D9). -/
def execAlu5Double (s : State) : Result :=
  .next (writeAluout (2 * s.r1.toNat : Int) s)

/-- CMD 6, average (floor) (R149). -/
def execAlu6Average (s : State) : Result :=
  .next (writeAluout ((s.r1.toNat + s.r2.toNat) / 2 : Nat) s)

/-- CMD 7, multiply (R150). -/
def execAlu7Multiply (s : State) : Result :=
  .next (writeAluout ((s.r1.toNat : Int) * s.r2.toNat) s)

/-- CMD 8, modulo (R151, reading D9). -/
def execAlu8Modulo (s : State) : Result :=
  if s.r2 = 0 then .next (raiseDivisionByZero s)
  else .next (writeAluout (s.r1.toNat % s.r2.toNat : Nat) s)

/-- CMD 9, halve (R152, reading D9). -/
def execAlu9Halve (s : State) : Result :=
  .next (writeAluout (s.r1.toNat / 2 : Nat) s)

/-- CMD 10, (R1*R2)-(R1+R2) (R153). -/
def execAlu10ProductMinusSum (s : State) : Result :=
  .next (writeAluout ((s.r1.toNat : Int) * s.r2.toNat - ((s.r1.toNat : Int) + s.r2.toNat)) s)

/-- CMD 11, subtract (R154, reading D9). -/
def execAlu11Subtract (s : State) : Result :=
  .next (writeAluout ((s.r1.toNat : Int) - s.r2.toNat) s)

/-- CMD 12, squared-difference (R155). -/
def execAlu12SquaredDifference (s : State) : Result :=
  .next (writeAluout (((s.r1.toNat : Int) - s.r2.toNat) * ((s.r1.toNat : Int) - s.r2.toNat)) s)

/-- CMD 13, identity(R1) (R156). -/
def execAlu13Identity (s : State) : Result :=
  .next (writeAluout (s.r1.toNat : Int) s)

/-- CMD 14, square(R1) (R157). -/
def execAlu14Square (s : State) : Result :=
  .next (writeAluout ((s.r1.toNat : Int) * s.r1.toNat) s)

/-- CMD 15, decrement(R1) (R158). -/
def execAlu15Decrement (s : State) : Result :=
  .next (writeAluout ((s.r1.toNat : Int) - 1) s)

end Sys2Proof.Machine
end

