-- ==== Sys2Proof/Machine/AluLogic.lean ====
section
/-! DEFINITION. The 16 bitwise commands of the ALU, CMD 16 to 31 (42_alu_logic.md). Each applies one two-input Boolean function
to each of the 4 bit pairs of R1 and R2 (R170). The functions of CMD 18, 22, 24, 25, 27 and 31 are the parameter LOGIC_TABLE
(R188, log entry 2). -/

namespace Sys2Proof.Machine

/-- The value of a truth table at a pair of bits (R188). -/
def truthTableValue (t : TruthTable) (a b : Bool) : Bool :=
  match a, b with
  | false, false => t.f00
  | false, true => t.f01
  | true, false => t.f10
  | true, true => t.f11

/-- A Boolean function applied to each bit pair of two operands, bit i of the result from bit i of each (R170). -/
def bitwiseApply (f : Bool → Bool → Bool) (x y : Nibble) : Nibble :=
  BitVec.ofFnLE fun i : Fin 4 => f (x.getLsbD i.val) (y.getLsbD i.val)

/-- A bitwise command: ALUOUT from R1 and R2, bit pair by bit pair (R170). -/
def bitwiseCommand (f : Bool → Bool → Bool) (s : State) : State :=
  { s with aluout := bitwiseApply f s.r1 s.r2 }

/-- CMD 16, NOT-R1 (R171). -/
def execAlu16NotR1 (s : State) : Result :=
  .next (bitwiseCommand (fun a _ => !a) s)

/-- CMD 17, NAND (R172). -/
def execAlu17Nand (s : State) : Result :=
  .next (bitwiseCommand (fun a b => !(a && b)) s)

/-- CMD 18, R2-implies-R1 variants (R173). -/
def execAlu18R2ImpliesR1 (s : State) : Result :=
  .next (bitwiseCommand (truthTableValue s.logicTable.k2) s)

/-- CMD 19, constant-1 (R174). -/
def execAlu19ConstantOne (s : State) : Result :=
  .next (bitwiseCommand (fun _ _ => true) s)

/-- CMD 20, XOR (R175). -/
def execAlu20Xor (s : State) : Result :=
  .next (bitwiseCommand (fun a b => a ^^ b) s)

/-- CMD 21, XNOR (R176). -/
def execAlu21Xnor (s : State) : Result :=
  .next (bitwiseCommand (fun a b => !(a ^^ b)) s)

/-- CMD 22, implication (R177). -/
def execAlu22Implication (s : State) : Result :=
  .next (bitwiseCommand (truthTableValue s.logicTable.k6) s)

/-- CMD 23, OR (R178). -/
def execAlu23Or (s : State) : Result :=
  .next (bitwiseCommand (fun a b => a || b) s)

/-- CMD 24, NOR-of-implication (R179). -/
def execAlu24NorOfImplication (s : State) : Result :=
  .next (bitwiseCommand (truthTableValue s.logicTable.k8) s)

/-- CMD 25, NAND-of-implication (R180). -/
def execAlu25NandOfImplication (s : State) : Result :=
  .next (bitwiseCommand (truthTableValue s.logicTable.k9) s)

/-- CMD 26, AND (R181). -/
def execAlu26And (s : State) : Result :=
  .next (bitwiseCommand (fun a b => a && b) s)

/-- CMD 27, XNOR(alt) (R182). -/
def execAlu27XnorAlt (s : State) : Result :=
  .next (bitwiseCommand (truthTableValue s.logicTable.k11) s)

/-- CMD 28, NOT-R2 (R183). -/
def execAlu28NotR2 (s : State) : Result :=
  .next (bitwiseCommand (fun _ b => !b) s)

/-- CMD 29, NOR (R184). -/
def execAlu29Nor (s : State) : Result :=
  .next (bitwiseCommand (fun a b => !(a || b)) s)

/-- CMD 30, XNOR (R185). -/
def execAlu30Xnor (s : State) : Result :=
  .next (bitwiseCommand (fun a b => !(a ^^ b)) s)

/-- CMD 31, XNOR(alt) (R186). -/
def execAlu31XnorAlt (s : State) : Result :=
  .next (bitwiseCommand (truthTableValue s.logicTable.k15) s)

end Sys2Proof.Machine
end

