-- ==== Sys2Proof/Machine/Alu.lean ====
section
/-! DEFINITION. ALU evaluation: the value of CMD at the start of the step selects one command (41_alu_arith.md R140, R141;
30_encoding.md R98). -/

namespace Sys2Proof.Machine

/-- `ALUOUT <- evaluate(R1, R2, CMD)`, each value of CMD running the meaning of its own row of the opcode table (R98). -/
def aluEvaluate (s : State) : Result :=
  match s.cmd.toNat with
  | 0 => execAlu0PassThroughZero s
  | 1 => execAlu1Divide s
  | 2 => execAlu2MultiplyMinusOne s
  | 3 => execAlu3Add s
  | 4 => execAlu4DifferenceOfSquares s
  | 5 => execAlu5Double s
  | 6 => execAlu6Average s
  | 7 => execAlu7Multiply s
  | 8 => execAlu8Modulo s
  | 9 => execAlu9Halve s
  | 10 => execAlu10ProductMinusSum s
  | 11 => execAlu11Subtract s
  | 12 => execAlu12SquaredDifference s
  | 13 => execAlu13Identity s
  | 14 => execAlu14Square s
  | 15 => execAlu15Decrement s
  | 16 => execAlu16NotR1 s
  | 17 => execAlu17Nand s
  | 18 => execAlu18R2ImpliesR1 s
  | 19 => execAlu19ConstantOne s
  | 20 => execAlu20Xor s
  | 21 => execAlu21Xnor s
  | 22 => execAlu22Implication s
  | 23 => execAlu23Or s
  | 24 => execAlu24NorOfImplication s
  | 25 => execAlu25NandOfImplication s
  | 26 => execAlu26And s
  | 27 => execAlu27XnorAlt s
  | 28 => execAlu28NotR2 s
  | 29 => execAlu29Nor s
  | 30 => execAlu30Xnor s
  | _ => execAlu31XnorAlt s

end Sys2Proof.Machine
end

