-- ==== Sys2Proof/Machine/Flags.lean ====
section
/-! DEFINITION. The engine has no status flags (10_state.md R30). What is conditional in it stands here: the guard, the fault
test, the command-shift test and the self-load test; the halt test is in Ops. -/

namespace Sys2Proof.Machine

/-- The guard of a step: halted or faulted, a step request has no effect (43_dispatch.md R200). -/
def stopped (s : State) : Bool :=
  s.halted || s.fault.isSome

/-- The fault test of a step that resolves the ALU: divide or modulo with R2 = 0 (43_dispatch.md R203). -/
def divisionFault (s : State) : Bool :=
  (s.cmd == 1 || s.cmd == 8) && s.r2 == 0

/-- The command-shift test, on rxId alone: 0, 4 and 5 (43_dispatch.md R208). -/
def shiftsCommand (dst : Dest) : Bool :=
  match dst with
  | .ri | .r1 | .r2 => true
  | .a | .b | .c | .out | .d7 => false

/-- The same-register pairs, whose transfer is a self-load no-op (43_dispatch.md R206). -/
def selfLoad (src : Source) (dst : Dest) : Bool :=
  match src, dst with
  | .ri, .ri | .a, .a | .b, .b | .c, .c => true
  | _, _ => false

end Sys2Proof.Machine
end

