-- ==== Sys2Proof/Machine/Operands.lean ====
section
/-! DEFINITION. The operand forms of a microword: resolving its source, with the source's side effects (43_dispatch.md R203,
R204, R205), and delivering the value to its destination (R206, R207). -/

namespace Sys2Proof.Machine

/-- What resolving a source gives. -/
inductive Resolved where
  /-- A value of a width, in the state after the source's side effects. -/
  | value (s : State) (width v : Nat)
  /-- No source: no transfer and no output, and the step goes on (R205). -/
  | unresolved (s : State)
  /-- The step ends here with this outcome (R203, R343). -/
  | ends (r : Result)

/-- Resolve the ALU: the fault test first, then the evaluation into ALUOUT, whose value is the source (R203). -/
def resolveAlu (s : State) : Resolved :=
  if divisionFault s then .ends (.next (raiseDivisionByZero s))
  else
    match aluEvaluate s with
    | .next e => .value e 4 e.aluout.toNat
    | .fault f => .ends (.fault f)
    | .refused r => .ends (.refused r)

/-- Resolve the input: one answer into INBUF, whose value is the source; with no answer the step does not complete (R204,
R343). -/
def resolveInput (s : State) : Resolved :=
  match inRead s with
  | some e => .value e 4 e.inbuf.toNat
  | none => .ends (.fault .waitsForInput)

/-- Resolve a source selector (R203, R204, R205). -/
def resolve (src : Source) (s : State) : Resolved :=
  match src with
  | .ri => .value s 3 s.ri.toNat
  | .a => .value s s.gpWidth.bits s.a.toNat
  | .b => .value s s.gpWidth.bits s.b.toNat
  | .c => .value s s.gpWidth.bits s.c.toNat
  | .alu => resolveAlu s
  | .input => resolveInput s
  | .s6 => .unresolved s
  | .s7 => .unresolved s

/-- `parallelLoad` of a value into a general register of width GP_W: the value modulo 2^GP_W (R206, 40_bitregister.md R122,
00_scope.md R7). -/
def loadGp (g : GpWidth) (v : Nat) : GpWord :=
  (BitRegister.parallelLoad g.bits v).setWidth 5

/-- Load a destination register with a value: right-aligned, modulo the register's width (R206, 40_bitregister.md R122). The
destinations OUT and D7 are no registers. -/
def loadRegister (dst : Dest) (v : Nat) (s : State) : State :=
  match dst with
  | .ri => { s with ri := BitRegister.parallelLoad 3 v }
  | .a => { s with a := loadGp s.gpWidth v }
  | .b => { s with b := loadGp s.gpWidth v }
  | .c => { s with c := loadGp s.gpWidth v }
  | .r1 => { s with r1 := BitRegister.parallelLoad 4 v }
  | .r2 => { s with r2 := BitRegister.parallelLoad 4 v }
  | .out => s
  | .d7 => s

/-- Deliver a resolved value: a register is loaded unless it is the source itself, OUT emits one event, D7 takes nothing (R206,
R207). -/
def deliver (src : Source) (dst : Dest) (width v : Nat) (s : State) : State :=
  match dst with
  | .out => emit src.code width v s
  | .d7 => s
  | .ri | .a | .b | .c | .r1 | .r2 => if selfLoad src dst then s else loadRegister dst v s

end Sys2Proof.Machine
end

