-- ==== Sys2Proof/Machine/Bus.lean ====
section
/-! DEFINITION. The part of a step that every microword shares, after the guard, the fetch and the decode (43_dispatch.md
R211). -/

namespace Sys2Proof.Machine

/-- What follows the transfer: the command shift where rxId is 0, 4 or 5, the counter advance, the halt test (R208, R209,
R210). -/
def completeStep (dst : Dest) (cc : CmdBits) (s : State) : State :=
  finish (if shiftsCommand dst then shiftCommand cc s else s)

/-- One bus transfer: resolve the source, deliver to the destination, shift, advance, test for the halt (R211). -/
def busStep (src : Source) (dst : Dest) (cc : CmdBits) (s : State) : Result :=
  match resolve src s with
  | .value e width v => .next (completeStep dst cc (deliver src dst width v e))
  | .unresolved e => .next (completeStep dst cc e)
  | .ends r => r

end Sys2Proof.Machine
end

