-- ==== Sys2Proof/Machine/AluSource.lean ====
section
/-! DEFINITION. The 8 microwords that evaluate the ALU (txId 4), R290-R297 (45_transfers_alu_in_nop.md). -/

namespace Sys2Proof.Machine

/-- `MOV RI, ALU` (R290). -/
def execMovRiAlu (cc : CmdBits) (s : State) : Result :=
  busStep .alu .ri cc s

/-- `MOV A, ALU` (R291). -/
def execMovAAlu (cc : CmdBits) (s : State) : Result :=
  busStep .alu .a cc s

/-- `MOV B, ALU` (R292). -/
def execMovBAlu (cc : CmdBits) (s : State) : Result :=
  busStep .alu .b cc s

/-- `MOV C, ALU` (R293). -/
def execMovCAlu (cc : CmdBits) (s : State) : Result :=
  busStep .alu .c cc s

/-- `MOV R1, ALU` (R294). -/
def execMovR1Alu (cc : CmdBits) (s : State) : Result :=
  busStep .alu .r1 cc s

/-- `MOV R2, ALU` (R295). -/
def execMovR2Alu (cc : CmdBits) (s : State) : Result :=
  busStep .alu .r2 cc s

/-- `MOV OUT, ALU` (R296). -/
def execMovOutAlu (cc : CmdBits) (s : State) : Result :=
  busStep .alu .out cc s

/-- `MOV D7, ALU` (R297). -/
def execMovD7Alu (cc : CmdBits) (s : State) : Result :=
  busStep .alu .d7 cc s

end Sys2Proof.Machine
end

