-- ==== Sys2Proof/Machine/InputSource.lean ====
section
/-! DEFINITION. The 8 microwords that read an input value (txId 5), R298-R305 (45_transfers_alu_in_nop.md). -/

namespace Sys2Proof.Machine

/-- `MOV RI, IN` (R298). -/
def execMovRiIn (cc : CmdBits) (s : State) : Result :=
  busStep .input .ri cc s

/-- `MOV A, IN` (R299). -/
def execMovAIn (cc : CmdBits) (s : State) : Result :=
  busStep .input .a cc s

/-- `MOV B, IN` (R300). -/
def execMovBIn (cc : CmdBits) (s : State) : Result :=
  busStep .input .b cc s

/-- `MOV C, IN` (R301). -/
def execMovCIn (cc : CmdBits) (s : State) : Result :=
  busStep .input .c cc s

/-- `MOV R1, IN` (R302). -/
def execMovR1In (cc : CmdBits) (s : State) : Result :=
  busStep .input .r1 cc s

/-- `MOV R2, IN` (R303). -/
def execMovR2In (cc : CmdBits) (s : State) : Result :=
  busStep .input .r2 cc s

/-- `MOV OUT, IN` (R304). -/
def execMovOutIn (cc : CmdBits) (s : State) : Result :=
  busStep .input .out cc s

/-- `MOV D7, IN` (R305). -/
def execMovD7In (cc : CmdBits) (s : State) : Result :=
  busStep .input .d7 cc s

end Sys2Proof.Machine
end

