-- ==== Sys2Proof/Machine/NoSource.lean ====
section
/-! DEFINITION. The 16 microwords with an unresolved source (txId 6 and 7), R306-R321 (45_transfers_alu_in_nop.md). -/

namespace Sys2Proof.Machine

/-- `MOV RI, S6` (R306). -/
def execMovRiS6 (cc : CmdBits) (s : State) : Result :=
  busStep .s6 .ri cc s

/-- `MOV A, S6` (R307). -/
def execMovAS6 (cc : CmdBits) (s : State) : Result :=
  busStep .s6 .a cc s

/-- `MOV B, S6` (R308). -/
def execMovBS6 (cc : CmdBits) (s : State) : Result :=
  busStep .s6 .b cc s

/-- `MOV C, S6` (R309). -/
def execMovCS6 (cc : CmdBits) (s : State) : Result :=
  busStep .s6 .c cc s

/-- `MOV R1, S6` (R310). -/
def execMovR1S6 (cc : CmdBits) (s : State) : Result :=
  busStep .s6 .r1 cc s

/-- `MOV R2, S6` (R311). -/
def execMovR2S6 (cc : CmdBits) (s : State) : Result :=
  busStep .s6 .r2 cc s

/-- `MOV OUT, S6` (R312). -/
def execMovOutS6 (cc : CmdBits) (s : State) : Result :=
  busStep .s6 .out cc s

/-- `MOV D7, S6` (R313). -/
def execMovD7S6 (cc : CmdBits) (s : State) : Result :=
  busStep .s6 .d7 cc s

/-- `MOV RI, S7` (R314). -/
def execMovRiS7 (cc : CmdBits) (s : State) : Result :=
  busStep .s7 .ri cc s

/-- `MOV A, S7` (R315). -/
def execMovAS7 (cc : CmdBits) (s : State) : Result :=
  busStep .s7 .a cc s

/-- `MOV B, S7` (R316). -/
def execMovBS7 (cc : CmdBits) (s : State) : Result :=
  busStep .s7 .b cc s

/-- `MOV C, S7` (R317). -/
def execMovCS7 (cc : CmdBits) (s : State) : Result :=
  busStep .s7 .c cc s

/-- `MOV R1, S7` (R318). -/
def execMovR1S7 (cc : CmdBits) (s : State) : Result :=
  busStep .s7 .r1 cc s

/-- `MOV R2, S7` (R319). -/
def execMovR2S7 (cc : CmdBits) (s : State) : Result :=
  busStep .s7 .r2 cc s

/-- `MOV OUT, S7` (R320). -/
def execMovOutS7 (cc : CmdBits) (s : State) : Result :=
  busStep .s7 .out cc s

/-- `MOV D7, S7` (R321). -/
def execMovD7S7 (cc : CmdBits) (s : State) : Result :=
  busStep .s7 .d7 cc s

end Sys2Proof.Machine
end

