-- ==== Sys2Proof/Machine/RegisterDiscard.lean ====
section
/-! DEFINITION. The 4 microwords with a register source and no destination (txId 0-3, rxId 7), R247, R255, R263, R271 (44_transfers_regsrc.md). -/

namespace Sys2Proof.Machine

/-- `MOV D7, RI` (R247). -/
def execMovD7Ri (cc : CmdBits) (s : State) : Result :=
  busStep .ri .d7 cc s

/-- `MOV D7, A` (R255). -/
def execMovD7A (cc : CmdBits) (s : State) : Result :=
  busStep .a .d7 cc s

/-- `MOV D7, B` (R263). -/
def execMovD7B (cc : CmdBits) (s : State) : Result :=
  busStep .b .d7 cc s

/-- `MOV D7, C` (R271). -/
def execMovD7C (cc : CmdBits) (s : State) : Result :=
  busStep .c .d7 cc s

end Sys2Proof.Machine
end

