-- ==== Sys2Proof/Machine/RegisterMove.lean ====
section
/-! DEFINITION. The 24 register moves (txId 0-3, rxId 0-5), R240-R269 (44_transfers_regsrc.md): source RI, A, B or C into RI, A, B, C, R1 or R2. -/

namespace Sys2Proof.Machine

/-- `MOV RI, RI` (R240). -/
def execMovRiRi (cc : CmdBits) (s : State) : Result :=
  busStep .ri .ri cc s

/-- `MOV A, RI` (R241). -/
def execMovARi (cc : CmdBits) (s : State) : Result :=
  busStep .ri .a cc s

/-- `MOV B, RI` (R242). -/
def execMovBRi (cc : CmdBits) (s : State) : Result :=
  busStep .ri .b cc s

/-- `MOV C, RI` (R243). -/
def execMovCRi (cc : CmdBits) (s : State) : Result :=
  busStep .ri .c cc s

/-- `MOV R1, RI` (R244). -/
def execMovR1Ri (cc : CmdBits) (s : State) : Result :=
  busStep .ri .r1 cc s

/-- `MOV R2, RI` (R245). -/
def execMovR2Ri (cc : CmdBits) (s : State) : Result :=
  busStep .ri .r2 cc s

/-- `MOV RI, A` (R248). -/
def execMovRiA (cc : CmdBits) (s : State) : Result :=
  busStep .a .ri cc s

/-- `MOV A, A` (R249). -/
def execMovAA (cc : CmdBits) (s : State) : Result :=
  busStep .a .a cc s

/-- `MOV B, A` (R250). -/
def execMovBA (cc : CmdBits) (s : State) : Result :=
  busStep .a .b cc s

/-- `MOV C, A` (R251). -/
def execMovCA (cc : CmdBits) (s : State) : Result :=
  busStep .a .c cc s

/-- `MOV R1, A` (R252). -/
def execMovR1A (cc : CmdBits) (s : State) : Result :=
  busStep .a .r1 cc s

/-- `MOV R2, A` (R253). -/
def execMovR2A (cc : CmdBits) (s : State) : Result :=
  busStep .a .r2 cc s

/-- `MOV RI, B` (R256). -/
def execMovRiB (cc : CmdBits) (s : State) : Result :=
  busStep .b .ri cc s

/-- `MOV A, B` (R257). -/
def execMovAB (cc : CmdBits) (s : State) : Result :=
  busStep .b .a cc s

/-- `MOV B, B` (R258). -/
def execMovBB (cc : CmdBits) (s : State) : Result :=
  busStep .b .b cc s

/-- `MOV C, B` (R259). -/
def execMovCB (cc : CmdBits) (s : State) : Result :=
  busStep .b .c cc s

/-- `MOV R1, B` (R260). -/
def execMovR1B (cc : CmdBits) (s : State) : Result :=
  busStep .b .r1 cc s

/-- `MOV R2, B` (R261). -/
def execMovR2B (cc : CmdBits) (s : State) : Result :=
  busStep .b .r2 cc s

/-- `MOV RI, C` (R264). -/
def execMovRiC (cc : CmdBits) (s : State) : Result :=
  busStep .c .ri cc s

/-- `MOV A, C` (R265). -/
def execMovAC (cc : CmdBits) (s : State) : Result :=
  busStep .c .a cc s

/-- `MOV B, C` (R266). -/
def execMovBC (cc : CmdBits) (s : State) : Result :=
  busStep .c .b cc s

/-- `MOV C, C` (R267). -/
def execMovCC (cc : CmdBits) (s : State) : Result :=
  busStep .c .c cc s

/-- `MOV R1, C` (R268). -/
def execMovR1C (cc : CmdBits) (s : State) : Result :=
  busStep .c .r1 cc s

/-- `MOV R2, C` (R269). -/
def execMovR2C (cc : CmdBits) (s : State) : Result :=
  busStep .c .r2 cc s

end Sys2Proof.Machine
end

