-- ==== Sys2Proof/Machine/RegisterOutput.lean ====
section
/-! DEFINITION. The 4 register outputs (txId 0-3, rxId 6), R246, R254, R262, R270 (44_transfers_regsrc.md). -/

namespace Sys2Proof.Machine

/-- `MOV OUT, RI` (R246). -/
def execMovOutRi (cc : CmdBits) (s : State) : Result :=
  busStep .ri .out cc s

/-- `MOV OUT, A` (R254). -/
def execMovOutA (cc : CmdBits) (s : State) : Result :=
  busStep .a .out cc s

/-- `MOV OUT, B` (R262). -/
def execMovOutB (cc : CmdBits) (s : State) : Result :=
  busStep .b .out cc s

/-- `MOV OUT, C` (R270). -/
def execMovOutC (cc : CmdBits) (s : State) : Result :=
  busStep .c .out cc s

end Sys2Proof.Machine
end

