-- ==== Sys2Proof/Machine/Dispatch.lean ====
section
/-! DEFINITION. One arm per instruction, each one direct call of that instruction's meaning. -/

namespace Sys2Proof.Machine

/-- The meaning of each instruction, after the guard, the fetch and the decode of a step (43_dispatch.md R200-R202). -/
def exec (i : Instr) (s : State) : Host.Outcome State Fault Refusal :=
  match i with
  | .movRiRi cc => Sys2Proof.Machine.execMovRiRi cc s
  | .movARi cc => Sys2Proof.Machine.execMovARi cc s
  | .movBRi cc => Sys2Proof.Machine.execMovBRi cc s
  | .movCRi cc => Sys2Proof.Machine.execMovCRi cc s
  | .movR1Ri cc => Sys2Proof.Machine.execMovR1Ri cc s
  | .movR2Ri cc => Sys2Proof.Machine.execMovR2Ri cc s
  | .movOutRi cc => Sys2Proof.Machine.execMovOutRi cc s
  | .movD7Ri cc => Sys2Proof.Machine.execMovD7Ri cc s
  | .movRiA cc => Sys2Proof.Machine.execMovRiA cc s
  | .movAA cc => Sys2Proof.Machine.execMovAA cc s
  | .movBA cc => Sys2Proof.Machine.execMovBA cc s
  | .movCA cc => Sys2Proof.Machine.execMovCA cc s
  | .movR1A cc => Sys2Proof.Machine.execMovR1A cc s
  | .movR2A cc => Sys2Proof.Machine.execMovR2A cc s
  | .movOutA cc => Sys2Proof.Machine.execMovOutA cc s
  | .movD7A cc => Sys2Proof.Machine.execMovD7A cc s
  | .movRiB cc => Sys2Proof.Machine.execMovRiB cc s
  | .movAB cc => Sys2Proof.Machine.execMovAB cc s
  | .movBB cc => Sys2Proof.Machine.execMovBB cc s
  | .movCB cc => Sys2Proof.Machine.execMovCB cc s
  | .movR1B cc => Sys2Proof.Machine.execMovR1B cc s
  | .movR2B cc => Sys2Proof.Machine.execMovR2B cc s
  | .movOutB cc => Sys2Proof.Machine.execMovOutB cc s
  | .movD7B cc => Sys2Proof.Machine.execMovD7B cc s
  | .movRiC cc => Sys2Proof.Machine.execMovRiC cc s
  | .movAC cc => Sys2Proof.Machine.execMovAC cc s
  | .movBC cc => Sys2Proof.Machine.execMovBC cc s
  | .movCC cc => Sys2Proof.Machine.execMovCC cc s
  | .movR1C cc => Sys2Proof.Machine.execMovR1C cc s
  | .movR2C cc => Sys2Proof.Machine.execMovR2C cc s
  | .movOutC cc => Sys2Proof.Machine.execMovOutC cc s
  | .movD7C cc => Sys2Proof.Machine.execMovD7C cc s
  | .movRiAlu cc => Sys2Proof.Machine.execMovRiAlu cc s
  | .movAAlu cc => Sys2Proof.Machine.execMovAAlu cc s
  | .movBAlu cc => Sys2Proof.Machine.execMovBAlu cc s
  | .movCAlu cc => Sys2Proof.Machine.execMovCAlu cc s
  | .movR1Alu cc => Sys2Proof.Machine.execMovR1Alu cc s
  | .movR2Alu cc => Sys2Proof.Machine.execMovR2Alu cc s
  | .movOutAlu cc => Sys2Proof.Machine.execMovOutAlu cc s
  | .movD7Alu cc => Sys2Proof.Machine.execMovD7Alu cc s
  | .movRiIn cc => Sys2Proof.Machine.execMovRiIn cc s
  | .movAIn cc => Sys2Proof.Machine.execMovAIn cc s
  | .movBIn cc => Sys2Proof.Machine.execMovBIn cc s
  | .movCIn cc => Sys2Proof.Machine.execMovCIn cc s
  | .movR1In cc => Sys2Proof.Machine.execMovR1In cc s
  | .movR2In cc => Sys2Proof.Machine.execMovR2In cc s
  | .movOutIn cc => Sys2Proof.Machine.execMovOutIn cc s
  | .movD7In cc => Sys2Proof.Machine.execMovD7In cc s
  | .movRiS6 cc => Sys2Proof.Machine.execMovRiS6 cc s
  | .movAS6 cc => Sys2Proof.Machine.execMovAS6 cc s
  | .movBS6 cc => Sys2Proof.Machine.execMovBS6 cc s
  | .movCS6 cc => Sys2Proof.Machine.execMovCS6 cc s
  | .movR1S6 cc => Sys2Proof.Machine.execMovR1S6 cc s
  | .movR2S6 cc => Sys2Proof.Machine.execMovR2S6 cc s
  | .movOutS6 cc => Sys2Proof.Machine.execMovOutS6 cc s
  | .movD7S6 cc => Sys2Proof.Machine.execMovD7S6 cc s
  | .movRiS7 cc => Sys2Proof.Machine.execMovRiS7 cc s
  | .movAS7 cc => Sys2Proof.Machine.execMovAS7 cc s
  | .movBS7 cc => Sys2Proof.Machine.execMovBS7 cc s
  | .movCS7 cc => Sys2Proof.Machine.execMovCS7 cc s
  | .movR1S7 cc => Sys2Proof.Machine.execMovR1S7 cc s
  | .movR2S7 cc => Sys2Proof.Machine.execMovR2S7 cc s
  | .movOutS7 cc => Sys2Proof.Machine.execMovOutS7 cc s
  | .movD7S7 cc => Sys2Proof.Machine.execMovD7S7 cc s
  | .alu0PassThroughZero => Sys2Proof.Machine.execAlu0PassThroughZero s
  | .alu1Divide => Sys2Proof.Machine.execAlu1Divide s
  | .alu2MultiplyMinusOne => Sys2Proof.Machine.execAlu2MultiplyMinusOne s
  | .alu3Add => Sys2Proof.Machine.execAlu3Add s
  | .alu4DifferenceOfSquares => Sys2Proof.Machine.execAlu4DifferenceOfSquares s
  | .alu5Double => Sys2Proof.Machine.execAlu5Double s
  | .alu6Average => Sys2Proof.Machine.execAlu6Average s
  | .alu7Multiply => Sys2Proof.Machine.execAlu7Multiply s
  | .alu8Modulo => Sys2Proof.Machine.execAlu8Modulo s
  | .alu9Halve => Sys2Proof.Machine.execAlu9Halve s
  | .alu10ProductMinusSum => Sys2Proof.Machine.execAlu10ProductMinusSum s
  | .alu11Subtract => Sys2Proof.Machine.execAlu11Subtract s
  | .alu12SquaredDifference => Sys2Proof.Machine.execAlu12SquaredDifference s
  | .alu13Identity => Sys2Proof.Machine.execAlu13Identity s
  | .alu14Square => Sys2Proof.Machine.execAlu14Square s
  | .alu15Decrement => Sys2Proof.Machine.execAlu15Decrement s
  | .alu16NotR1 => Sys2Proof.Machine.execAlu16NotR1 s
  | .alu17Nand => Sys2Proof.Machine.execAlu17Nand s
  | .alu18R2ImpliesR1 => Sys2Proof.Machine.execAlu18R2ImpliesR1 s
  | .alu19ConstantOne => Sys2Proof.Machine.execAlu19ConstantOne s
  | .alu20Xor => Sys2Proof.Machine.execAlu20Xor s
  | .alu21Xnor => Sys2Proof.Machine.execAlu21Xnor s
  | .alu22Implication => Sys2Proof.Machine.execAlu22Implication s
  | .alu23Or => Sys2Proof.Machine.execAlu23Or s
  | .alu24NorOfImplication => Sys2Proof.Machine.execAlu24NorOfImplication s
  | .alu25NandOfImplication => Sys2Proof.Machine.execAlu25NandOfImplication s
  | .alu26And => Sys2Proof.Machine.execAlu26And s
  | .alu27XnorAlt => Sys2Proof.Machine.execAlu27XnorAlt s
  | .alu28NotR2 => Sys2Proof.Machine.execAlu28NotR2 s
  | .alu29Nor => Sys2Proof.Machine.execAlu29Nor s
  | .alu30Xnor => Sys2Proof.Machine.execAlu30Xnor s
  | .alu31XnorAlt => Sys2Proof.Machine.execAlu31XnorAlt s

end Sys2Proof.Machine
end

