-- ==== Sys2Proof/Machine/Step.lean ====
section
/-! DEFINITION. One step request (43_dispatch.md R200-R211), and the placing of an instruction where the next step runs it. -/

namespace Sys2Proof.Machine

/-- `step()`: a halted or faulted engine changes nothing (R200); otherwise fetch, decode and execute one microword (R211). -/
def step (s : State) : Host.Outcome State Fault Refusal :=
  if stopped s then .next s
  else Sys2Proof.Machine.exec (Sys2Proof.decodeMicroword (fetch s)) s

/-- The state with one word of the ROM replaced at the program counter, and with the guard open so that the next step runs it. -/
def State.placeMicroword (s : State) (w : Byte) : State :=
  { s with rom := s.rom.write (romIndex s.ri s.rc) w, halted := false, fault := none }

/-- The state whose next step runs the opcode-table instruction of bits w. A row of 8 bits or more is a microword, stored in the
ROM at (RI, Rc). A row of fewer bits is an ALU command: it is stored in CMD, and the microword `MOV D7, ALU` (10011100), which
evaluates the ALU and transfers nothing, in the ROM at (RI, Rc). Log entries 8 and 9. -/
def State.withFetchWord (s : State) (nbits w : Nat) : State :=
  if nbits < 8 then
    { s.placeMicroword 0b10011100#8 with cmd := BitVec.ofNat 5 (w % 2 ^ nbits) }
  else s.placeMicroword (BitVec.ofNat 8 (w % 2 ^ nbits))

end Sys2Proof.Machine
end

