-- ==== Sys2Proof/Machine/Loader.lean ====
section
/-! DEFINITION. The microcode image and what the ROM holds after loading it (20_memory.md R64-R67). An image is its characters;
reading them from a file is out of the spec's scope (00_scope.md R5). -/

namespace Sys2Proof.Machine

/-- The lines of an image: the text between line feeds, no character removed (R67). -/
def imageLines (image : List Char) : List (List Char) :=
  match image with
  | [] => [[]]
  | ch :: rest =>
    if ch = '\n' then [] :: imageLines rest
    else
      match imageLines rest with
      | [] => [[ch]]
      | line :: lines => (ch :: line) :: lines

/-- What the loader does with a line (R65). -/
inductive LineKind where
  /-- Empty, or begins with a number sign: ignored. -/
  | ignored
  /-- Exactly 8 characters, each 0 or 1: the next word of the table. -/
  | accepted (w : Byte)
  /-- Any other line: silently skipped, no error. -/
  | skipped
deriving DecidableEq, Repr

/-- The number a line of binary digits spells, first character most significant (R66). -/
def binaryValue (line : List Char) : Nat :=
  line.foldl (fun n ch => 2 * n + (if ch = '1' then 1 else 0)) 0

/-- Every character of the line is 0 or 1 (R65). -/
def allBinary (line : List Char) : Bool :=
  line.all fun ch => decide (ch = '0') || decide (ch = '1')

/-- Classify a line (R65, R66). -/
def lineKind (line : List Char) : LineKind :=
  if line = [] ∨ line.head? = some '#' then .ignored
  else if line.length = 8 ∧ allBinary line = true then .accepted (BitVec.ofNat 8 (binaryValue line))
  else .skipped

/-- The words of the accepted lines, in order (R64). -/
def acceptedWords (lines : List (List Char)) : List Byte :=
  lines.filterMap fun line =>
    match lineKind line with
    | .accepted w => some w
    | .ignored => none
    | .skipped => none

/-- Store words from a linear index on, stopping once 32 words are stored (R64). -/
def storeWords (words : List Byte) (n : Nat) (m : Memory) : Memory :=
  match words with
  | [] => m
  | w :: rest => if n < 32 then storeWords rest (n + 1) (m.write n w) else m

/-- The ROM an image gives: the n-th accepted line at index n, every other entry the zero word (R64). -/
def romOfImage (image : List Char) : Memory :=
  storeWords (acceptedWords (imageLines image)) 0 []

end Sys2Proof.Machine
end

