-- ==== Sys2Proof/Machine/HostRequests.lean ====
section
/-! DEFINITION. What the host can ask of the engine beside a step: load an image, read the halt and fault status, take a
snapshot, see which of its four conditions the engine is in (60_exceptions.md R345, R346, R356, R357). The reset request is in
Ops. -/

namespace Sys2Proof.Machine

/-- Load a microcode image: the ROM comes to hold it, nothing else changes and nothing fails (20_memory.md R64, R65; R357). The
host does this once, before the first step. -/
def loadImage (image : List Char) (s : State) : State :=
  { s with rom := romOfImage image }

/-- `isHalted()` (R346): false in a faulted state. -/
def isHalted (s : State) : Bool :=
  s.halted

/-- `faultStatus()` (R346). -/
def faultStatus (s : State) : Option DivisionByZero :=
  s.fault

/-- What a snapshot shows: every register, halted and fault (R345, D23). -/
structure Snapshot where
  /-- RI. -/
  ri : SlotWord
  /-- Rc. -/
  rc : CycleWord
  /-- A. -/
  a : GpWord
  /-- B. -/
  b : GpWord
  /-- C. -/
  c : GpWord
  /-- R1. -/
  r1 : Nibble
  /-- R2. -/
  r2 : Nibble
  /-- CMD. -/
  cmd : CmdWord
  /-- ALUOUT. -/
  aluout : Nibble
  /-- INBUF. -/
  inbuf : Nibble
  /-- halted. -/
  halted : Bool
  /-- fault. -/
  fault : Option DivisionByZero
  /-- ROM. -/
  rom : Memory
deriving DecidableEq, Repr

/-- The read-only snapshot of a state between steps: all state of R20 (R345, R357). -/
def snapshot (s : State) : Snapshot where
  ri := s.ri
  rc := s.rc
  a := s.a
  b := s.b
  c := s.c
  r1 := s.r1
  r2 := s.r2
  cmd := s.cmd
  aluout := s.aluout
  inbuf := s.inbuf
  halted := s.halted
  fault := s.fault
  rom := s.rom

/-- The four conditions of the engine (R356). -/
inductive Condition where
  /-- The next step executes a microword. -/
  | running
  /-- The step that resolves the input has no answer yet. -/
  | waitingForInput
  /-- Terminal until reset. -/
  | halted
  /-- Terminal until reset. -/
  | faulted
deriving DecidableEq, Repr

/-- The condition a state is in: faulted and halted are read off the state, waiting is a step that does not complete (R356). -/
def condition (s : State) : Condition :=
  if s.fault.isSome then .faulted
  else if s.halted then .halted
  else
    match step s with
    | .next _ => .running
    | .fault .waitsForInput => .waitingForInput
    | .refused _ => .running

end Sys2Proof.Machine
end

