-- ==== Sys2Proof/Safety.lean ====
section
/-! DEFINITION. The terms the claims use: the consistent states, the states that run, and the parts of a state an observer
compares. -/

namespace Sys2Proof.Machine

/-- The engine runs: a step request executes a microword (60_exceptions.md R356). -/
def Running (s : State) : Prop :=
  s.halted = false ∧ s.fault = none

/-- An answer to the next input read is there or will come: the read does not wait for ever (60_exceptions.md R343). -/
def InputReady (s : State) : Prop :=
  s.inputs ≠ [] ∨ s.supplyEnds = false

/-- The value the next input read gives: the first listed answer, or the free answer (R343). -/
def nextInput (s : State) : Nibble :=
  s.inputs.head?.getD (Config.inputAnswer s.inputsTaken)

/-- The state after the next input read: INBUF holds the value and one answer is consumed (43_dispatch.md R204). -/
def afterInput (s : State) : State :=
  { s with inbuf := nextInput s, inputs := s.inputs.tail, inputsTaken := s.inputsTaken + 1 }

/-- An output event an engine of width GP_W can emit: a bus source with a value, of that source's width, with a value below
2^width (60_exceptions.md R344, 30_encoding.md R94). -/
def OutputEvent.Legal (g : GpWidth) (e : OutputEvent) : Prop :=
  e.tx.toNat ≤ 5 ∧
  e.width = (if e.tx.toNat = 0 then 3 else if e.tx.toNat ≤ 3 then g.bits else 4) ∧
  e.value < 2 ^ e.width

/-- The fault record agrees with the state it was recorded in, which the fault left as it was (60_exceptions.md R340). -/
def FaultPrecise (s : State) : Prop :=
  ∀ f, s.fault = some f → f.ri = s.ri ∧ f.rc = s.rc ∧ f.cmd = s.cmd ∧ (s.cmd = 1 ∨ s.cmd = 8) ∧ s.r2 = 0

/-- Each general register holds a value below 2^GP_W (00_scope.md R7, 10_state.md R24). -/
def GpInRange (s : State) : Prop :=
  s.a.toNat < 2 ^ s.gpWidth.bits ∧ s.b.toNat < 2 ^ s.gpWidth.bits ∧ s.c.toNat < 2 ^ s.gpWidth.bits

/-- The consistent states: the ROM in canonical form, general registers within their width, halted only at the origin and never with a fault, a fault record that
agrees with the state, and legal output events (00_scope.md R7; 43_dispatch.md R210; 60_exceptions.md R340, R342, R344). -/
structure State.Inv (s : State) : Prop where
  /-- The ROM is in canonical form. -/
  rom_wf : s.rom.wf = true
  /-- A, B and C are values of width GP_W. -/
  gp_range : GpInRange s
  /-- A halted engine is at the origin, not faulted. -/
  halted_origin : s.halted = true → s.ri = 0 ∧ s.rc = 0 ∧ s.fault = none
  /-- The fault record is precise. -/
  fault_precise : FaultPrecise s
  /-- Every event emitted is legal. -/
  output_legal : ∀ e ∈ s.output, e.Legal s.gpWidth

/-- Two outcomes agree when their next states agree under a view of the state, and any stop is the same stop. -/
def AgreeUnder {α : Type} (view : State → α) (x y : Result) : Prop :=
  match x, y with
  | .next s, .next t => view s = view t
  | .fault f, .fault g => f = g
  | .refused q, .refused r => q = r
  | _, _ => False

/-- A microword that does not write RI: rxId is not 0, or its source is RI itself or unresolved (43_dispatch.md R205, R206). -/
def keepsSlot (w : Byte) : Bool :=
  decide (destOf (w.extractLsb' 2 3) ≠ .ri) || decide (sourceOf (w.extractLsb' 5 3) = .ri) ||
    decide (sourceOf (w.extractLsb' 5 3) = .s6) || decide (sourceOf (w.extractLsb' 5 3) = .s7)

end Sys2Proof.Machine
end

