-- ==== Sys2Proof/Certificates/Slice0/Obligations.lean ====
section
/-! DEFINITION. The statements about the engine. Each statement of an instruction's result gives the whole next state, so that
what is not named in it is unchanged. -/

open Sys2Proof Sys2Proof.Machine

/-- Every instruction, with every value of its command bits, is what its encoding decodes to, in its own format (R90-R98). -/
def Obligations.EveryInstructionDecodesFromItsEncoding : Prop :=
  ∀ (f : Format) (i : Instr), i.wellFormedAs f = true →
    match encode i with
    | .microword w => f = .microword ∧ decodeMicroword w = i
    | .aluCommand cmd => f = .aluCommand ∧ decodeAluCommand cmd = i

/-- Each of the 256 words and each of the 32 command values has one meaning, whose encoding is that word or value (R96, R97, R98). -/
def Obligations.EveryWordEncodesBack : Prop :=
  (∀ w : Byte, encode (decodeMicroword w) = .microword w) ∧
  (∀ cmd : CmdWord, encode (decodeAluCommand cmd) = .aluCommand cmd)

/-- A word matches the mask and pattern of an instruction's opcode-table row exactly when it decodes to that row's operation (R96). -/
def Obligations.WordsMatchTheirOpcodeTableRow : Prop :=
  ∀ (w : Byte) (i : Instr),
    (Code.microword w).fits i.row = true ↔ (decodeMicroword w).row = i.row

/-- txId is w[7:5], rxId is w[4:2], the command bits are w[1:0]; the selectors name the sources and destinations in the order of their tables (R90, R91, R94, R95; the bit order is decision D2). -/
def Obligations.DecodeReadsTheSpecFields : Prop :=
  (∀ w : Byte, ∃ src dst cc, (decodeMicroword w).fields = .mov src dst cc ∧
    src.code.toNat = w.toNat / 32 ∧ dst.code.toNat = w.toNat / 4 % 8 ∧ cc.toNat = w.toNat % 4) ∧
  [Source.ri, .a, .b, .c, .alu, .input, .s6, .s7].map Source.code = [0, 1, 2, 3, 4, 5, 6, 7] ∧
  [Dest.ri, .a, .b, .c, .r1, .r2, .out, .d7].map Dest.code = [0, 1, 2, 3, 4, 5, 6, 7]

/-- Words written out from the spec's encodings (program P1 of 95_test_vectors.md, rules R90 to R98). -/
def Obligations.SampleWordsDecode : Prop :=
  decodeMicroword 0b10100100#8 = .movAIn 0b00#2 ∧ decodeMicroword 0b00110011#8 = .movR1A 0b11#2 ∧
  decodeMicroword 0b10001000#8 = .movBAlu 0b00#2 ∧ decodeMicroword 0b01011000#8 = .movOutB 0b00#2 ∧
  decodeMicroword 0b11111101#8 = .movD7S7 0b01#2 ∧ decodeMicroword 0b00000000#8 = .movRiRi 0b00#2 ∧
  decodeAluCommand 0b00011#5 = .alu3Add ∧ decodeAluCommand 0b11010#5 = .alu26And

/-- The expansions of the spec's pseudo-instructions, as words (R101, whose syntax is decision D18). -/
def Obligations.PseudoInstructionsExpand : Prop :=
  Pseudo.nop.expand.map encode = [.microword 0b00100100#8] ∧
  (∀ cc, (Pseudo.shift cc).expand.map encode = [.microword (0b000000#6 ++ cc)]) ∧
  (∀ k : CmdWord, (Pseudo.ldcmd k).expand.map encode =
    [.microword (BitVec.ofNat 8 (k.toNat / 16)), .microword (BitVec.ofNat 8 (k.toNat / 4 % 4)), .microword (BitVec.ofNat 8 (k.toNat % 4))]) ∧
  (∀ dst cc, (Pseudo.inp dst cc).expand.map encode = [.microword (0b101#3 ++ dst.code ++ cc)]) ∧
  (∀ src, (Pseudo.out src).expand.map encode = [.microword (src.code ++ 0b11000#5)]) ∧
  (∀ src, (Pseudo.jmp src).expand.map encode = [.microword (src.code ++ 0b00000#5)])

/-- Fetch at (RI, Rc), decode, execute: nothing else stands between a step request and the instruction (R201, R202, R211). -/
def Obligations.StepRunsTheDecodedMicroword : Prop :=
  ∀ (s : State) (i : Instr) (rest : List Byte), Running s → i.wellFormedAs .microword = true →
    decode [s.rom.read (4 * s.ri.toNat + s.rc.toNat)] = .ok (i, rest) → step s = exec i s

/-- A halted or faulted engine changes nothing, however many steps are requested (R200; decisions D4 and D5). -/
def Obligations.HaltedOrFaultedEngineStaysAsItIs : Prop :=
  ∀ (s : State) (k : Nat), s.halted = true ∨ s.fault ≠ none → Host.Core.run Sys2Proof.core k s = .next s

/-- The counter advance (R209). -/
def Obligations.CounterAdvanceWrapsRcIntoRi : Prop :=
  ∀ s : State, ∃ rc ri,
    advance s = { s with rc := rc, ri := ri } ∧ rc.toNat = (s.rc.toNat + 1) % 4 ∧
    ri.toNat = if rc.toNat = 0 then (s.ri.toNat + 1) % 8 else s.ri.toNat

/-- The halt test at the end of a step, s being the state after the step's transfer and shift (R210); that this is Rc = 3 and RI = 7 before the advance is an inference the spec marks as derived. -/
def Obligations.StepEndHaltsExactlyAtTheOrigin : Prop :=
  ∀ s : State,
    finish s = { advance s with halted := (finish s).halted } ∧
    ((finish s).halted = true ↔ s.halted = true ∨ ((finish s).ri = 0 ∧ (finish s).rc = 0)) ∧
    ((finish s).halted = true ↔ s.halted = true ∨ (s.rc = 3 ∧ s.ri = 7))

/-- The halt test over whole steps: a step that completes halts exactly at the origin, and a faulting step never halts (R210, R342). -/
def Obligations.StepHaltsOnlyAtTheOrigin : Prop :=
  ∀ s t : State, Running s → step s = .next t →
    (t.halted = true ↔ t.fault = none ∧ t.ri = 0 ∧ t.rc = 0)

/-- A step that completes advances Rc; a faulting step leaves the address where it was (R213, an inference the spec marks as derived). -/
def Obligations.EveryCompletedStepMovesOn : Prop :=
  ∀ s t : State, Running s → step s = .next t →
    (t.fault = none ∧ t.rc.toNat = (s.rc.toNat + 1) % 4) ∨ (t.fault ≠ none ∧ t.ri = s.ri ∧ t.rc = s.rc)

/-- Without a write of RI, execution visits the 32 addresses in order and halts after the 32nd step, unless a fault stops it (R213, an inference the spec marks as derived). -/
def Obligations.WithoutSlotWritesTheEngineHaltsAfter32Steps : Prop :=
  ∀ (s t : State) (k : Nat), Running s → s.ri = 0 → s.rc = 0 →
    (∀ ri rc, keepsSlot (romRead s.rom ri rc) = true) → k ≤ 32 →
    Host.Core.run Sys2Proof.core k s = .next t → t.fault = none →
    4 * t.ri.toNat + t.rc.toNat = k % 32 ∧ (t.halted = true ↔ k = 32)

/-- With a supplier that always answers, every step request has a next state: nothing else in the engine is an error (R341, R343; the reading of a waiting step as a stop is log entry 4). -/
def Obligations.OnlyAMissingInputStopsARun : Prop :=
  ∀ (s : State) (k : Nat), s.supplyEnds = false → ∃ t, Host.Core.run Sys2Proof.core k s = .next t

/-- Where a computed jump goes and when it halts, for each of its six sources (R212, R382, inferences the spec marks as derived). -/
def Obligations.ComputedJumpTargets : Prop :=
  ∀ (cc : CmdBits) (s t : State) (i : Instr) (v : Nat),
    ((i = .movRiRi cc ∧ v = s.ri.toNat) ∨ (i = .movRiA cc ∧ v = s.a.toNat) ∨ (i = .movRiB cc ∧ v = s.b.toNat) ∨
      (i = .movRiC cc ∧ v = s.c.toNat) ∨ (i = .movRiIn cc ∧ v = (nextInput s).toNat) ∨
      (i = .movRiAlu cc ∧ ¬ ((s.cmd = 1 ∨ s.cmd = 8) ∧ s.r2 = 0) ∧
        ∃ e, exec (decodeAluCommand s.cmd) s = .next e ∧ v = e.aluout.toNat)) →
    Running s → exec i s = .next t →
    (s.rc.toNat < 3 → t.ri.toNat = v % 8 ∧ t.rc.toNat = s.rc.toNat + 1 ∧ t.halted = false) ∧
    (s.rc.toNat = 3 → t.ri.toNat = (v % 8 + 1) % 8 ∧ t.rc.toNat = 0 ∧ (t.halted = true ↔ v % 8 = 7))

/-- MOV RI from RI, A, B and C: the whole next state, the end of the step being `finish` (R240, R248, R256, R264). -/
def Obligations.MoveRegisterToRi : Prop :=
  ∀ (cc : CmdBits) (s : State),
    exec (.movRiRi cc) s = .next (finish { s with cmd := BitVec.ofNat 5 ((s.cmd.toNat * 4 + cc.toNat) % 32) }) ∧
    exec (.movRiA cc) s = .next (finish { s with ri := BitVec.ofNat 3 (s.a.toNat % 8), cmd := BitVec.ofNat 5 ((s.cmd.toNat * 4 + cc.toNat) % 32) }) ∧
    exec (.movRiB cc) s = .next (finish { s with ri := BitVec.ofNat 3 (s.b.toNat % 8), cmd := BitVec.ofNat 5 ((s.cmd.toNat * 4 + cc.toNat) % 32) }) ∧
    exec (.movRiC cc) s = .next (finish { s with ri := BitVec.ofNat 3 (s.c.toNat % 8), cmd := BitVec.ofNat 5 ((s.cmd.toNat * 4 + cc.toNat) % 32) })

/-- MOV A from RI, A, B and C: the whole next state, the end of the step being `finish`, at every GP_W, the modulus being 16 at GP_W = 4 (R241, R249, R257, R265). -/
def Obligations.MoveRegisterToA : Prop :=
  ∀ (cc : CmdBits) (s : State),
    exec (.movARi cc) s = .next (finish { s with a := BitVec.ofNat 5 (s.ri.toNat % 2 ^ s.gpWidth.bits) }) ∧
    exec (.movAA cc) s = .next (finish s) ∧
    exec (.movAB cc) s = .next (finish { s with a := BitVec.ofNat 5 (s.b.toNat % 2 ^ s.gpWidth.bits) }) ∧
    exec (.movAC cc) s = .next (finish { s with a := BitVec.ofNat 5 (s.c.toNat % 2 ^ s.gpWidth.bits) })

/-- MOV B from RI, A, B and C: the whole next state, the end of the step being `finish`, at every GP_W, the modulus being 16 at GP_W = 4 (R242, R250, R258, R266). -/
def Obligations.MoveRegisterToB : Prop :=
  ∀ (cc : CmdBits) (s : State),
    exec (.movBRi cc) s = .next (finish { s with b := BitVec.ofNat 5 (s.ri.toNat % 2 ^ s.gpWidth.bits) }) ∧
    exec (.movBA cc) s = .next (finish { s with b := BitVec.ofNat 5 (s.a.toNat % 2 ^ s.gpWidth.bits) }) ∧
    exec (.movBB cc) s = .next (finish s) ∧
    exec (.movBC cc) s = .next (finish { s with b := BitVec.ofNat 5 (s.c.toNat % 2 ^ s.gpWidth.bits) })

/-- MOV C from RI, A, B and C: the whole next state, the end of the step being `finish`, at every GP_W, the modulus being 16 at GP_W = 4 (R243, R251, R259, R267). -/
def Obligations.MoveRegisterToC : Prop :=
  ∀ (cc : CmdBits) (s : State),
    exec (.movCRi cc) s = .next (finish { s with c := BitVec.ofNat 5 (s.ri.toNat % 2 ^ s.gpWidth.bits) }) ∧
    exec (.movCA cc) s = .next (finish { s with c := BitVec.ofNat 5 (s.a.toNat % 2 ^ s.gpWidth.bits) }) ∧
    exec (.movCB cc) s = .next (finish { s with c := BitVec.ofNat 5 (s.b.toNat % 2 ^ s.gpWidth.bits) }) ∧
    exec (.movCC cc) s = .next (finish s)

/-- MOV R1 from RI, A, B and C: the whole next state, the end of the step being `finish` (R244, R252, R260, R268). -/
def Obligations.MoveRegisterToR1 : Prop :=
  ∀ (cc : CmdBits) (s : State),
    exec (.movR1Ri cc) s = .next (finish { s with r1 := BitVec.ofNat 4 (s.ri.toNat % 16), cmd := BitVec.ofNat 5 ((s.cmd.toNat * 4 + cc.toNat) % 32) }) ∧
    exec (.movR1A cc) s = .next (finish { s with r1 := BitVec.ofNat 4 (s.a.toNat % 16), cmd := BitVec.ofNat 5 ((s.cmd.toNat * 4 + cc.toNat) % 32) }) ∧
    exec (.movR1B cc) s = .next (finish { s with r1 := BitVec.ofNat 4 (s.b.toNat % 16), cmd := BitVec.ofNat 5 ((s.cmd.toNat * 4 + cc.toNat) % 32) }) ∧
    exec (.movR1C cc) s = .next (finish { s with r1 := BitVec.ofNat 4 (s.c.toNat % 16), cmd := BitVec.ofNat 5 ((s.cmd.toNat * 4 + cc.toNat) % 32) })

/-- MOV R2 from RI, A, B and C: the whole next state, the end of the step being `finish` (R245, R253, R261, R269). -/
def Obligations.MoveRegisterToR2 : Prop :=
  ∀ (cc : CmdBits) (s : State),
    exec (.movR2Ri cc) s = .next (finish { s with r2 := BitVec.ofNat 4 (s.ri.toNat % 16), cmd := BitVec.ofNat 5 ((s.cmd.toNat * 4 + cc.toNat) % 32) }) ∧
    exec (.movR2A cc) s = .next (finish { s with r2 := BitVec.ofNat 4 (s.a.toNat % 16), cmd := BitVec.ofNat 5 ((s.cmd.toNat * 4 + cc.toNat) % 32) }) ∧
    exec (.movR2B cc) s = .next (finish { s with r2 := BitVec.ofNat 4 (s.b.toNat % 16), cmd := BitVec.ofNat 5 ((s.cmd.toNat * 4 + cc.toNat) % 32) }) ∧
    exec (.movR2C cc) s = .next (finish { s with r2 := BitVec.ofNat 4 (s.c.toNat % 16), cmd := BitVec.ofNat 5 ((s.cmd.toNat * 4 + cc.toNat) % 32) })

/-- MOV OUT from RI, A, B and C: one event is appended and no register but the counters changes (R246, R254, R262, R270). -/
def Obligations.RegisterOutputEmitsOneEvent : Prop :=
  ∀ (cc : CmdBits) (s : State),
    exec (.movOutRi cc) s = .next (finish { s with output := s.output ++ [⟨0#3, 3, s.ri.toNat⟩] }) ∧
    exec (.movOutA cc) s = .next (finish { s with output := s.output ++ [⟨1#3, s.gpWidth.bits, s.a.toNat⟩] }) ∧
    exec (.movOutB cc) s = .next (finish { s with output := s.output ++ [⟨2#3, s.gpWidth.bits, s.b.toNat⟩] }) ∧
    exec (.movOutC cc) s = .next (finish { s with output := s.output ++ [⟨3#3, s.gpWidth.bits, s.c.toNat⟩] })

/-- MOV RI, A, B, C, R1 and R2 from the ALU: v is what the ALU command in CMD writes to ALUOUT (R290-R295). -/
def Obligations.AluResultToRegister : Prop :=
  ∀ (cc : CmdBits) (s : State),
    ((s.cmd = 1 ∨ s.cmd = 8) ∧ s.r2 = 0 →
      exec (.movRiAlu cc) s = .next { s with fault := some ⟨s.ri, s.rc, s.cmd⟩ } ∧
      exec (.movAAlu cc) s = .next { s with fault := some ⟨s.ri, s.rc, s.cmd⟩ } ∧
      exec (.movBAlu cc) s = .next { s with fault := some ⟨s.ri, s.rc, s.cmd⟩ } ∧
      exec (.movCAlu cc) s = .next { s with fault := some ⟨s.ri, s.rc, s.cmd⟩ } ∧
      exec (.movR1Alu cc) s = .next { s with fault := some ⟨s.ri, s.rc, s.cmd⟩ } ∧
      exec (.movR2Alu cc) s = .next { s with fault := some ⟨s.ri, s.rc, s.cmd⟩ }) ∧
    (¬ ((s.cmd = 1 ∨ s.cmd = 8) ∧ s.r2 = 0) → ∃ v, exec (decodeAluCommand s.cmd) s = .next { s with aluout := v } ∧
      exec (.movRiAlu cc) s = .next (finish { s with aluout := v, ri := BitVec.ofNat 3 (v.toNat % 8), cmd := BitVec.ofNat 5 ((s.cmd.toNat * 4 + cc.toNat) % 32) }) ∧
      exec (.movAAlu cc) s = .next (finish { s with aluout := v, a := BitVec.ofNat 5 (v.toNat % 2 ^ s.gpWidth.bits) }) ∧
      exec (.movBAlu cc) s = .next (finish { s with aluout := v, b := BitVec.ofNat 5 (v.toNat % 2 ^ s.gpWidth.bits) }) ∧
      exec (.movCAlu cc) s = .next (finish { s with aluout := v, c := BitVec.ofNat 5 (v.toNat % 2 ^ s.gpWidth.bits) }) ∧
      exec (.movR1Alu cc) s = .next (finish { s with aluout := v, r1 := BitVec.ofNat 4 (v.toNat % 16), cmd := BitVec.ofNat 5 ((s.cmd.toNat * 4 + cc.toNat) % 32) }) ∧
      exec (.movR2Alu cc) s = .next (finish { s with aluout := v, r2 := BitVec.ofNat 4 (v.toNat % 16), cmd := BitVec.ofNat 5 ((s.cmd.toNat * 4 + cc.toNat) % 32) }))

/-- MOV OUT from the ALU: v is what the ALU command in CMD writes to ALUOUT (R296). -/
def Obligations.AluResultToOutput : Prop :=
  ∀ (cc : CmdBits) (s : State),
    ((s.cmd = 1 ∨ s.cmd = 8) ∧ s.r2 = 0 →
      exec (.movOutAlu cc) s = .next { s with fault := some ⟨s.ri, s.rc, s.cmd⟩ }) ∧
    (¬ ((s.cmd = 1 ∨ s.cmd = 8) ∧ s.r2 = 0) → ∃ v, exec (decodeAluCommand s.cmd) s = .next { s with aluout := v } ∧
      exec (.movOutAlu cc) s = .next (finish { s with aluout := v, output := s.output ++ [⟨4#3, 4, v.toNat⟩] }))

/-- The one fault: when a step raises it, what it records, and that nothing else raises it or is written (R340, R342; decision D4). -/
def Obligations.DivisionByZeroIsRaisedExactlyByAZeroDivisor : Prop :=
  ∀ s : State, Running s →
    (sourceOf ((fetch s).extractLsb' 5 3) = .alu → (s.cmd = 1 ∨ s.cmd = 8) ∧ s.r2 = 0 → step s = .next { s with fault := some ⟨s.ri, s.rc, s.cmd⟩ }) ∧
    (∀ t, step s = .next t → t.fault ≠ none →
      sourceOf ((fetch s).extractLsb' 5 3) = .alu ∧ (s.cmd = 1 ∨ s.cmd = 8) ∧ s.r2 = 0 ∧ t = { s with fault := some ⟨s.ri, s.rc, s.cmd⟩ })

/-- MOV RI, A, B, C, R1 and R2 from the input, with an answer ready or to come (R298-R303). -/
def Obligations.InputToRegister : Prop :=
  ∀ (cc : CmdBits) (s : State), InputReady s →
    exec (.movRiIn cc) s = .next (finish { afterInput s with ri := BitVec.ofNat 3 ((nextInput s).toNat % 8), cmd := BitVec.ofNat 5 ((s.cmd.toNat * 4 + cc.toNat) % 32) }) ∧
    exec (.movAIn cc) s = .next (finish { afterInput s with a := BitVec.ofNat 5 ((nextInput s).toNat % 2 ^ s.gpWidth.bits) }) ∧
    exec (.movBIn cc) s = .next (finish { afterInput s with b := BitVec.ofNat 5 ((nextInput s).toNat % 2 ^ s.gpWidth.bits) }) ∧
    exec (.movCIn cc) s = .next (finish { afterInput s with c := BitVec.ofNat 5 ((nextInput s).toNat % 2 ^ s.gpWidth.bits) }) ∧
    exec (.movR1In cc) s = .next (finish { afterInput s with r1 := BitVec.ofNat 4 ((nextInput s).toNat % 16), cmd := BitVec.ofNat 5 ((s.cmd.toNat * 4 + cc.toNat) % 32) }) ∧
    exec (.movR2In cc) s = .next (finish { afterInput s with r2 := BitVec.ofNat 4 ((nextInput s).toNat % 16), cmd := BitVec.ofNat 5 ((s.cmd.toNat * 4 + cc.toNat) % 32) })

/-- MOV OUT from the input echoes the value read (R304). -/
def Obligations.InputToOutput : Prop :=
  ∀ (cc : CmdBits) (s : State), InputReady s →
    exec (.movOutIn cc) s = .next (finish { afterInput s with output := s.output ++ [⟨5#3, 4, (nextInput s).toNat⟩] })

/-- MOV D7 from the ALU and from the input: the evaluation and the read happen, and only the transfer is dropped (R297, R305, decision D7). -/
def Obligations.DiscardedSourceStillTakesItsEffect : Prop :=
  ∀ (cc : CmdBits) (s : State),
    ((s.cmd = 1 ∨ s.cmd = 8) ∧ s.r2 = 0 → exec (.movD7Alu cc) s = .next { s with fault := some ⟨s.ri, s.rc, s.cmd⟩ }) ∧
    (¬ ((s.cmd = 1 ∨ s.cmd = 8) ∧ s.r2 = 0) → ∃ v, exec (decodeAluCommand s.cmd) s = .next { s with aluout := v } ∧
      exec (.movD7Alu cc) s = .next (finish { s with aluout := v })) ∧
    (InputReady s → exec (.movD7In cc) s = .next (finish (afterInput s)))

/-- What the input read of a step takes: the first listed answer; with none listed the free answer of the opaque oracle, or nothing where the supply ends (R343, item I5; the split is the model's choice, log entries 3 and 4). -/
def Obligations.NextInputIsTheListedAnswer : Prop :=
  (∀ (s : State) (v : Nibble) (rest : List Nibble), s.inputs = v :: rest →
    inRead s = some { s with inbuf := v, inputs := rest, inputsTaken := s.inputsTaken + 1 }) ∧
  (∀ s : State, s.inputs = [] → s.supplyEnds = false →
    inRead s = some { s with inbuf := Config.inputAnswer s.inputsTaken, inputsTaken := s.inputsTaken + 1 }) ∧
  (∀ s : State, s.inputs = [] → s.supplyEnds = true → inRead s = none) ∧
  (∀ s : State, InputReady s ↔ inRead s = some (afterInput s))

/-- With no answer listed and a supply that ends, the step has no successor state (R343, item I5; the outcome's form is log entry 4). -/
def Obligations.ExhaustedInputStopsTheStep : Prop :=
  ∀ (cc : CmdBits) (s : State), s.inputs = [] → s.supplyEnds = true →
    exec (.movRiIn cc) s = .fault .waitsForInput ∧
    exec (.movAIn cc) s = .fault .waitsForInput ∧
    exec (.movBIn cc) s = .fault .waitsForInput ∧
    exec (.movCIn cc) s = .fault .waitsForInput ∧
    exec (.movR1In cc) s = .fault .waitsForInput ∧
    exec (.movR2In cc) s = .fault .waitsForInput ∧
    exec (.movOutIn cc) s = .fault .waitsForInput ∧
    exec (.movD7In cc) s = .fault .waitsForInput

/-- One answer is consumed per step with txId 5, and none by any other step (R204, R343). -/
def Obligations.StepConsumesOneInputExactlyForSourceIn : Prop :=
  ∀ s t : State, Running s → step s = .next t →
    t.supplyEnds = s.supplyEnds ∧
    (sourceOf ((fetch s).extractLsb' 5 3) = .input → t.inputsTaken = s.inputsTaken + 1 ∧ t.inputs = s.inputs.tail) ∧
    (sourceOf ((fetch s).extractLsb' 5 3) ≠ .input → t.inputsTaken = s.inputsTaken ∧ t.inputs = s.inputs ∧ t.inbuf = s.inbuf)

/-- S6 and S7 into RI, R1 and R2 act as SHIFT cc: no transfer, but the shift and the advance happen (R306, R310, R311, R314, R318, R319, which rest on decision D6). -/
def Obligations.UnresolvedSourceShiftsOnly : Prop :=
  ∀ (cc : CmdBits) (s : State),
    exec (.movRiS6 cc) s = .next (finish { s with cmd := BitVec.ofNat 5 ((s.cmd.toNat * 4 + cc.toNat) % 32) }) ∧
    exec (.movR1S6 cc) s = .next (finish { s with cmd := BitVec.ofNat 5 ((s.cmd.toNat * 4 + cc.toNat) % 32) }) ∧
    exec (.movR2S6 cc) s = .next (finish { s with cmd := BitVec.ofNat 5 ((s.cmd.toNat * 4 + cc.toNat) % 32) }) ∧
    exec (.movRiS7 cc) s = .next (finish { s with cmd := BitVec.ofNat 5 ((s.cmd.toNat * 4 + cc.toNat) % 32) }) ∧
    exec (.movR1S7 cc) s = .next (finish { s with cmd := BitVec.ofNat 5 ((s.cmd.toNat * 4 + cc.toNat) % 32) }) ∧
    exec (.movR2S7 cc) s = .next (finish { s with cmd := BitVec.ofNat 5 ((s.cmd.toNat * 4 + cc.toNat) % 32) })

/-- D7 from RI, A, B, C, and S6 and S7 into A, B, C, OUT and D7, change nothing but the counters (R247, R255, R263, R271 by decision D7; R307-R309, R312, R313, R315-R317, R320, R321 by decision D6). -/
def Obligations.NoTransferOnlyAdvances : Prop :=
  ∀ (cc : CmdBits) (s : State),
    exec (.movD7Ri cc) s = .next (finish s) ∧
    exec (.movD7A cc) s = .next (finish s) ∧
    exec (.movD7B cc) s = .next (finish s) ∧
    exec (.movD7C cc) s = .next (finish s) ∧
    exec (.movAS6 cc) s = .next (finish s) ∧
    exec (.movBS6 cc) s = .next (finish s) ∧
    exec (.movCS6 cc) s = .next (finish s) ∧
    exec (.movOutS6 cc) s = .next (finish s) ∧
    exec (.movD7S6 cc) s = .next (finish s) ∧
    exec (.movAS7 cc) s = .next (finish s) ∧
    exec (.movBS7 cc) s = .next (finish s) ∧
    exec (.movCS7 cc) s = .next (finish s) ∧
    exec (.movOutS7 cc) s = .next (finish s) ∧
    exec (.movD7S7 cc) s = .next (finish s)

/-- The arithmetic commands whose formula the source's name fixes: add, average, multiply, (R1*R2)-(R1+R2), squared-difference, identity, square, decrement (R142, R146, R149, R150, R153, R155-R158). -/
def Obligations.ArithmeticCommandResults : Prop :=
  ∀ s : State,
    exec .alu3Add s = .next { s with aluout := BitVec.ofNat 4 ((s.r1.toNat + s.r2.toNat) % 16) } ∧
    exec .alu6Average s = .next { s with aluout := BitVec.ofNat 4 ((s.r1.toNat + s.r2.toNat) / 2) } ∧
    exec .alu7Multiply s = .next { s with aluout := BitVec.ofNat 4 (s.r1.toNat * s.r2.toNat % 16) } ∧
    exec .alu10ProductMinusSum s = .next { s with aluout := BitVec.ofInt 4 (((s.r1.toNat : Int) * (s.r2.toNat : Int) - ((s.r1.toNat : Int) + (s.r2.toNat : Int))) % 16) } ∧
    exec .alu12SquaredDifference s = .next { s with aluout := BitVec.ofInt 4 (((s.r1.toNat : Int) - (s.r2.toNat : Int)) * ((s.r1.toNat : Int) - (s.r2.toNat : Int)) % 16) } ∧
    exec .alu13Identity s = .next { s with aluout := s.r1 } ∧
    exec .alu14Square s = .next { s with aluout := BitVec.ofNat 4 (s.r1.toNat * s.r1.toNat % 16) } ∧
    exec .alu15Decrement s = .next { s with aluout := BitVec.ofInt 4 (((s.r1.toNat : Int) - 1) % 16) }

/-- The arithmetic commands whose names the spec reads by its decision D9: pass-through zero, multiply-minus-one, difference-of-squares, double, halve, subtract (R143, R145, R147, R148, R152, R154; log entry 14). -/
def Obligations.ArithmeticCommandReadings : Prop :=
  ∀ s : State,
    exec .alu0PassThroughZero s = .next { s with aluout := 0 } ∧
    exec .alu2MultiplyMinusOne s = .next { s with aluout := BitVec.ofInt 4 (((s.r1.toNat : Int) * (s.r2.toNat : Int) - 1) % 16) } ∧
    exec .alu4DifferenceOfSquares s = .next { s with aluout := BitVec.ofInt 4 (((s.r1.toNat : Int) * (s.r1.toNat : Int) - (s.r2.toNat : Int) * (s.r2.toNat : Int)) % 16) } ∧
    exec .alu5Double s = .next { s with aluout := BitVec.ofNat 4 (2 * s.r1.toNat % 16) } ∧
    exec .alu9Halve s = .next { s with aluout := BitVec.ofNat 4 (s.r1.toNat / 2) } ∧
    exec .alu11Subtract s = .next { s with aluout := BitVec.ofInt 4 (((s.r1.toNat : Int) - (s.r2.toNat : Int)) % 16) }

/-- Divide and modulo, with a divisor and without (R144, R151, R159; decisions D9 and D4). -/
def Obligations.DivideAndModulo : Prop :=
  ∀ s : State,
    (s.r2 ≠ 0 → exec .alu1Divide s = .next { s with aluout := BitVec.ofNat 4 (s.r1.toNat / s.r2.toNat) } ∧
      exec .alu8Modulo s = .next { s with aluout := BitVec.ofNat 4 (s.r1.toNat % s.r2.toNat) }) ∧
    (s.r2 = 0 → exec .alu1Divide s = .next { s with fault := some ⟨s.ri, s.rc, s.cmd⟩ } ∧ exec .alu8Modulo s = .next { s with fault := some ⟨s.ri, s.rc, s.cmd⟩ })

/-- The ten bitwise commands whose names fix their function (R171, R172, R174-R176, R178, R181, R183-R185); all but R171 rest on the standard tables of item G1, log entry 14. -/
def Obligations.BitwiseCommandResults : Prop :=
  ∀ s : State,
    exec .alu16NotR1 s = .next { s with aluout := ~~~s.r1 } ∧
    exec .alu17Nand s = .next { s with aluout := ~~~(s.r1 &&& s.r2) } ∧
    exec .alu19ConstantOne s = .next { s with aluout := 15#4 } ∧
    exec .alu20Xor s = .next { s with aluout := s.r1 ^^^ s.r2 } ∧
    exec .alu21Xnor s = .next { s with aluout := ~~~(s.r1 ^^^ s.r2) } ∧
    exec .alu23Or s = .next { s with aluout := s.r1 ||| s.r2 } ∧
    exec .alu26And s = .next { s with aluout := s.r1 &&& s.r2 } ∧
    exec .alu28NotR2 s = .next { s with aluout := ~~~s.r2 } ∧
    exec .alu29Nor s = .next { s with aluout := ~~~(s.r1 ||| s.r2) } ∧
    exec .alu30Xnor s = .next { s with aluout := ~~~(s.r1 ^^^ s.r2) }

/-- The six bitwise commands whose tables are the parameter LOGIC_TABLE, for every table (R170, R188, decision D10). -/
def Obligations.BitwiseParameterCommandsFollowTheLogicTable : Prop :=
  ∀ s : State,
    (∃ v, exec .alu18R2ImpliesR1 s = .next { s with aluout := v } ∧
      ∀ i, i < 4 → v.getLsbD i = truthTableValue s.logicTable.k2 (s.r1.getLsbD i) (s.r2.getLsbD i)) ∧
    (∃ v, exec .alu22Implication s = .next { s with aluout := v } ∧
      ∀ i, i < 4 → v.getLsbD i = truthTableValue s.logicTable.k6 (s.r1.getLsbD i) (s.r2.getLsbD i)) ∧
    (∃ v, exec .alu24NorOfImplication s = .next { s with aluout := v } ∧
      ∀ i, i < 4 → v.getLsbD i = truthTableValue s.logicTable.k8 (s.r1.getLsbD i) (s.r2.getLsbD i)) ∧
    (∃ v, exec .alu25NandOfImplication s = .next { s with aluout := v } ∧
      ∀ i, i < 4 → v.getLsbD i = truthTableValue s.logicTable.k9 (s.r1.getLsbD i) (s.r2.getLsbD i)) ∧
    (∃ v, exec .alu27XnorAlt s = .next { s with aluout := v } ∧
      ∀ i, i < 4 → v.getLsbD i = truthTableValue s.logicTable.k11 (s.r1.getLsbD i) (s.r2.getLsbD i)) ∧
    (∃ v, exec .alu31XnorAlt s = .next { s with aluout := v } ∧
      ∀ i, i < 4 → v.getLsbD i = truthTableValue s.logicTable.k15 (s.r1.getLsbD i) (s.r2.getLsbD i)) ∧
    ∀ (t : TruthTable) (a b : Bool), truthTableValue t a b =
      if a = true then (if b = true then t.f11 else t.f10) else (if b = true then t.f01 else t.f00)

/-- The same six commands under the spec's default table, which the hypothesis names (R173, R177, R179, R180, R182, R186, decision D10; log entry 2). -/
def Obligations.BitwiseDefaultsUnderTheSpecTable : Prop :=
  ∀ s : State, s.logicTable = LogicTable.specDefault →
    exec .alu18R2ImpliesR1 s = .next { s with aluout := s.r1 ||| ~~~s.r2 } ∧
    exec .alu22Implication s = .next { s with aluout := ~~~s.r1 ||| s.r2 } ∧
    exec .alu24NorOfImplication s = .next { s with aluout := s.r1 &&& ~~~s.r2 } ∧
    exec .alu25NandOfImplication s = .next { s with aluout := ~~~s.r1 &&& s.r2 } ∧
    exec .alu27XnorAlt s = .next { s with aluout := ~~~(s.r1 ^^^ s.r2) } ∧
    exec .alu31XnorAlt s = .next { s with aluout := ~~~(s.r1 ^^^ s.r2) }

/-- An evaluation that does not fault changes ALUOUT and nothing else; one that faults changes nothing but the fault status (R160). -/
def Obligations.EvaluationChangesOnlyAluout : Prop :=
  ∀ s : State,
    (¬ ((s.cmd = 1 ∨ s.cmd = 8) ∧ s.r2 = 0) → ∃ v, exec (decodeAluCommand s.cmd) s = .next { s with aluout := v }) ∧
    ((s.cmd = 1 ∨ s.cmd = 8) ∧ s.r2 = 0 → exec (decodeAluCommand s.cmd) s = .next { s with fault := some ⟨s.ri, s.rc, s.cmd⟩ })

/-- An evaluation is a pure function of R1, R2 and CMD, given the parameter LOGIC_TABLE (R140, R8). -/
def Obligations.EvaluationReadsOnlyItsOperands : Prop :=
  ∀ s s' t t' : State, s.r1 = s'.r1 → s.r2 = s'.r2 → s.cmd = s'.cmd → s.logicTable = s'.logicTable →
    ¬ ((s.cmd = 1 ∨ s.cmd = 8) ∧ s.r2 = 0) → exec (decodeAluCommand s.cmd) s = .next t → exec (decodeAluCommand s'.cmd) s' = .next t' →
    t.aluout = t'.aluout

/-- The command bits are data: they never change what a microword does in its own step, and only reach CMD, c1 first, in steps with rxId 0, 4 or 5 (R92). -/
def Obligations.CommandBitsOnlyReachCmd : Prop :=
  ∀ (src : Source) (dst : Dest) (cc cc' : CmdBits) (s : State),
    AgreeUnder (fun t => { t with cmd := 0 }) (exec (microwordOf src dst cc) s) (exec (microwordOf src dst cc') s) ∧
    (dst ≠ .ri → dst ≠ .r1 → dst ≠ .r2 → exec (microwordOf src dst cc) s = exec (microwordOf src dst cc') s) ∧
    (∀ t, (dst = .ri ∨ dst = .r1 ∨ dst = .r2) → s.fault = none → exec (microwordOf src dst cc) s = .next t → t.fault = none →
      t.cmd = BitRegister.shiftIn (BitRegister.shiftIn s.cmd (cc.getLsbD 1)) (cc.getLsbD 0))

/-- Every completed step with rxId 0, 4 or 5 shifts its two command bits into CMD, and no other step changes CMD (R208, R381; for the unresolved sources decision D6). -/
def Obligations.OnlySelectors045ShiftCmd : Prop :=
  ∀ s t : State, Running s → step s = .next t → t.fault = none →
    t.cmd.toNat = if destOf ((fetch s).extractLsb' 2 3) = .ri ∨ destOf ((fetch s).extractLsb' 2 3) = .r1 ∨ destOf ((fetch s).extractLsb' 2 3) = .r2
      then (s.cmd.toNat * 4 + (fetch s).toNat % 4) % 32 else s.cmd.toNat

/-- How a command is assembled from pairs (R93, an inference the spec marks as derived). -/
def Obligations.ThreeShiftsSetTheCommand : Prop :=
  ∀ (p1 p2 p3 : CmdBits) (s : State),
    (shiftCommand p3 (shiftCommand p2 (shiftCommand p1 s))).cmd.toNat = p1.toNat % 2 * 16 + p2.toNat * 4 + p3.toNat ∧
    (shiftCommand p2 (shiftCommand p1 s)).cmd.toNat = s.cmd.toNat % 2 * 16 + p1.toNat * 4 + p2.toNat

/-- Each register has the one writer its rule names (R24, R25, R27, R28, R33); the parameters GP_W and LOGIC_TABLE have none (R8). -/
def Obligations.RegistersChangeOnlyThroughTheirSelectors : Prop :=
  ∀ s t : State, step s = .next t →
    (destOf ((fetch s).extractLsb' 2 3) ≠ .a → t.a = s.a) ∧ (destOf ((fetch s).extractLsb' 2 3) ≠ .b → t.b = s.b) ∧ (destOf ((fetch s).extractLsb' 2 3) ≠ .c → t.c = s.c) ∧
    (destOf ((fetch s).extractLsb' 2 3) ≠ .r1 → t.r1 = s.r1) ∧ (destOf ((fetch s).extractLsb' 2 3) ≠ .r2 → t.r2 = s.r2) ∧
    (sourceOf ((fetch s).extractLsb' 5 3) ≠ .alu → t.aluout = s.aluout) ∧ (sourceOf ((fetch s).extractLsb' 5 3) ≠ .input → t.inbuf = s.inbuf) ∧
    (destOf ((fetch s).extractLsb' 2 3) ≠ .out → t.output = s.output) ∧ t.logicTable = s.logicTable ∧ t.gpWidth = s.gpWidth

/-- The ROM is read-only while the engine runs (R63). -/
def Obligations.RomIsNeverWrittenByARun : Prop :=
  ∀ (s t : State) (k : Nat), Host.Core.run Sys2Proof.core k s = .next t →
    t.rom = s.rom ∧ ∀ n, t.rom.read n = s.rom.read n

/-- No microword can read ALUOUT or INBUF without first overwriting it (R27, R28), so a value left in them never reaches anything else. -/
def Obligations.StaleBuffersNeverInfluenceARun : Prop :=
  ∀ (s : State) (x y : Nibble) (k : Nat),
    AgreeUnder (fun t => { t with aluout := 0, inbuf := 0 })
      (Host.Core.run Sys2Proof.core k s) (Host.Core.run Sys2Proof.core k { s with aluout := x, inbuf := y })

/-- One event per completed step with rxId 6 and a resolved source, appended; the engine never reads the sequence back: whatever it held, the step appends the same events and does the same elsewhere (R344, decision D12). -/
def Obligations.OutputIsAppendedAndNeverReadBack : Prop :=
  (∀ s t : State, step s = .next t → ∃ new, t.output = s.output ++ new ∧ new.length ≤ 1 ∧
    (new ≠ [] ↔ Running s ∧ t.fault = none ∧ destOf ((fetch s).extractLsb' 2 3) = .out ∧ sourceOf ((fetch s).extractLsb' 5 3) ≠ .s6 ∧ sourceOf ((fetch s).extractLsb' 5 3) ≠ .s7) ∧
    ∀ o : List OutputEvent, step { s with output := o } = .next { t with output := o ++ new }) ∧
  (∀ (s : State) (o : List OutputEvent),
    AgreeUnder (fun t => { t with output := [] }) (step s) (step { s with output := o }))

/-- The invariant holds at reset; its clauses are those of `State.Inv`. -/
def Obligations.ResetStateIsConsistent : Prop :=
  State.reset.Inv

/-- Every step keeps the invariant: the ROM in canonical form, A, B and C below 2^GP_W, halted only at the origin and never with a fault, a precise fault record, legal output events (R7, R210, R340, R342, R344). -/
def Obligations.EveryStepKeepsTheStateConsistent : Prop :=
  ∀ s t : State, s.Inv → step s = .next t → t.Inv

/-- Loading an image: its lines are the text between line feeds, no character removed (R67, decision D17); the accepted ones are kept in order, the n-th at linear index n, zero where there is none, later lines ignored (R64); the load changes the ROM alone (R357). -/
def Obligations.LoaderStoresTheNthAcceptedLine : Prop :=
  (∀ image : List Char, imageLines image ≠ [] ∧ List.intercalate ['\n'] (imageLines image) = image ∧
    ∀ line ∈ imageLines image, '\n' ∉ line) ∧
  (∀ lines : List (List Char), (acceptedWords lines).map LineKind.accepted =
    (lines.map lineKind).filter fun k => decide (k ≠ .ignored) && decide (k ≠ .skipped)) ∧
  (∀ (image : List Char) (s : State), loadImage image s = { s with rom := (loadImage image s).rom }) ∧
  (∀ (image : List Char) (s : State) (ri : SlotWord) (rc : CycleWord),
    romRead (loadImage image s).rom ri rc = (acceptedWords (imageLines image)).getD (4 * ri.toNat + rc.toNat) 0#8)

/-- Which lines the loader ignores, accepts and skips (R65). -/
def Obligations.LoaderAcceptsExactlyEightBinaryDigits : Prop :=
  ∀ line : List Char,
    (lineKind line = .ignored ↔ line = [] ∨ line.head? = some '#') ∧
    ((∃ w, lineKind line = .accepted w) ↔ line.length = 8 ∧ ∀ ch ∈ line, ch = '0' ∨ ch = '1') ∧
    (lineKind line = .skipped ↔ ¬ (line = [] ∨ line.head? = some '#') ∧ ¬ (line.length = 8 ∧ ∀ ch ∈ line, ch = '0' ∨ ch = '1'))

/-- Character p of an accepted line is bit 7-p of the word (R66, decision D2). -/
def Obligations.AcceptedLineReadsAsABinaryNumber : Prop :=
  ∀ (line : List Char) (w : Byte), lineKind line = .accepted w →
    ∀ p, p < 8 → (w.getLsbD (7 - p) = true ↔ line.getD p '0' = '1')

/-- The state after reset, before an image is loaded (R370; values other than RI, Rc, R2 and the ROM are the spec's decisions D3, D4, D12, D21); that the parameters GP_W and LOGIC_TABLE stand at the spec's defaults D1 and D10 is the model's choice, log entries 1 and 2. -/
def Obligations.ResetStateValues : Prop :=
  State.reset.ri = 0 ∧ State.reset.rc = 0 ∧ State.reset.a = 0 ∧ State.reset.b = 0 ∧ State.reset.c = 0 ∧
  State.reset.r1 = 0 ∧ State.reset.r2 = 0 ∧ State.reset.cmd = 0 ∧ State.reset.aluout = 0 ∧ State.reset.inbuf = 0 ∧
  State.reset.halted = false ∧ State.reset.fault = none ∧ State.reset.output = [] ∧
  State.reset.gpWidth.bits = 4 ∧ State.reset.logicTable = LogicTable.specDefault ∧
  [GpWidth.two, .three, .four, .five].map GpWidth.bits = [2, 3, 4, 5] ∧
  ∀ ri rc, romRead State.reset.rom ri rc = 0

/-- The reset request from any state, the only way out of the halted and faulted states (R371, R373, decision D16); that it keeps the parameters is the model's choice, log entry 12. -/
def Obligations.ResetRequestRestoresAllButTheRom : Prop :=
  ∀ s : State, Running (resetRequest s) ∧ (resetRequest s).rom = s.rom ∧
    snapshot (resetRequest s) = { snapshot State.reset with rom := s.rom } ∧ (resetRequest s).output = [] ∧
    (resetRequest s).gpWidth = s.gpWidth ∧ (resetRequest s).logicTable = s.logicTable ∧
    step (resetRequest s) = exec (decodeMicroword (romRead s.rom 0 0)) (resetRequest s)

/-- The four conditions of the engine (R356); that the wait is a state with no answer listed and a supply that ends is the model's reading, log entries 3 and 4. -/
def Obligations.ConditionOfEveryState : Prop :=
  ∀ s : State,
    (condition s = .faulted ↔ s.fault ≠ none) ∧
    (condition s = .halted ↔ s.fault = none ∧ s.halted = true) ∧
    (condition s = .waitingForInput ↔ Running s ∧ sourceOf ((fetch s).extractLsb' 5 3) = .input ∧ s.inputs = [] ∧ s.supplyEnds = true) ∧
    (condition s = .running ↔ Running s ∧ ∃ t, step s = .next t)

/-- The two laws every BitRegister satisfies (R128), here for every width. -/
def Obligations.BitRegisterLaws : Prop :=
  (∀ (w : Nat) (v : Int), BitRegister.fromValue w (BitRegister.toValue (BitRegister.fromValue w v)) = BitRegister.fromValue w v) ∧
  (∀ (w : Nat) (x : BitVec w), Nat.iterate BitRegister.increment (2 ^ w) x = x)

/-- shiftIn drops the top bit and appends at the low end (R121); increment wraps (R123); toValue and fromValue (R124). -/
def Obligations.BitRegisterOperationValues : Prop :=
  ∀ (w : Nat) (x : BitVec w) (b : Bool) (v : Int),
    (BitRegister.shiftIn x b).toNat = (x.toNat * 2 + b.toNat) % 2 ^ w ∧
    (∀ i, i < w → (BitRegister.shiftIn x b).getLsbD i = if i = 0 then b else x.getLsbD (i - 1)) ∧
    (BitRegister.increment x).toNat = (x.toNat + 1) % 2 ^ w ∧
    BitRegister.toValue x = ∑ i ∈ Finset.range w, (x.getLsbD i).toNat * 2 ^ i ∧
    ((BitRegister.fromValue w v).toNat : Int) = v % (2 ^ w : Nat)

/-- parallelLoad is right-aligned: low bits kept, a wider destination zero-extended, a wider source truncated; at the same width it is a reload, as a self-load is (R122). -/
def Obligations.ParallelLoadIsRightAligned : Prop :=
  ∀ (ws wd : Nat) (src : BitVec ws),
    (BitRegister.parallelLoad wd src.toNat).toNat = src.toNat % 2 ^ wd ∧
    (∀ i, i < wd → (BitRegister.parallelLoad wd src.toNat).getLsbD i = src.getLsbD i) ∧
    (∀ i, ws ≤ i → (BitRegister.parallelLoad wd src.toNat).getLsbD i = false) ∧
    BitRegister.parallelLoad ws src.toNat = src

/-- Indexed bit access reads and writes the bit of weight 2^i and refuses an index outside the register (R125, decision D22). -/
def Obligations.BitAccessIsCheckedAgainstTheWidth : Prop :=
  ∀ (w : Nat) (x : BitVec w) (i : Nat) (b : Bool),
    (w ≤ i → BitRegister.get x i = none ∧ BitRegister.set x i b = none) ∧
    (i < w → BitRegister.get x i = some (x.getLsbD i) ∧
      ∃ y, BitRegister.set x i b = some y ∧ ∀ j, j < w → y.getLsbD j = if j = i then b else x.getLsbD j)
end

