-- ==== Sys2Proof/Laws/State.lean ====
section
/-! SUPPORT. One lemma per field per named update of the state, each true by rfl, so that no proof unfolds an update. -/

namespace Sys2Proof.Machine

section RaiseDivisionByZero

variable (s : State)

@[simp] theorem raiseDivisionByZero_ri : (raiseDivisionByZero s).ri = s.ri := rfl
@[simp] theorem raiseDivisionByZero_rc : (raiseDivisionByZero s).rc = s.rc := rfl
@[simp] theorem raiseDivisionByZero_a : (raiseDivisionByZero s).a = s.a := rfl
@[simp] theorem raiseDivisionByZero_b : (raiseDivisionByZero s).b = s.b := rfl
@[simp] theorem raiseDivisionByZero_c : (raiseDivisionByZero s).c = s.c := rfl
@[simp] theorem raiseDivisionByZero_r1 : (raiseDivisionByZero s).r1 = s.r1 := rfl
@[simp] theorem raiseDivisionByZero_r2 : (raiseDivisionByZero s).r2 = s.r2 := rfl
@[simp] theorem raiseDivisionByZero_cmd : (raiseDivisionByZero s).cmd = s.cmd := rfl
@[simp] theorem raiseDivisionByZero_aluout : (raiseDivisionByZero s).aluout = s.aluout := rfl
@[simp] theorem raiseDivisionByZero_inbuf : (raiseDivisionByZero s).inbuf = s.inbuf := rfl
@[simp] theorem raiseDivisionByZero_halted : (raiseDivisionByZero s).halted = s.halted := rfl
@[simp] theorem raiseDivisionByZero_fault : (raiseDivisionByZero s).fault = some ⟨s.ri, s.rc, s.cmd⟩ := rfl
@[simp] theorem raiseDivisionByZero_rom : (raiseDivisionByZero s).rom = s.rom := rfl
@[simp] theorem raiseDivisionByZero_output : (raiseDivisionByZero s).output = s.output := rfl
@[simp] theorem raiseDivisionByZero_gpWidth : (raiseDivisionByZero s).gpWidth = s.gpWidth := rfl
@[simp] theorem raiseDivisionByZero_logicTable : (raiseDivisionByZero s).logicTable = s.logicTable := rfl
@[simp] theorem raiseDivisionByZero_inputs : (raiseDivisionByZero s).inputs = s.inputs := rfl
@[simp] theorem raiseDivisionByZero_supplyEnds : (raiseDivisionByZero s).supplyEnds = s.supplyEnds := rfl
@[simp] theorem raiseDivisionByZero_inputsTaken : (raiseDivisionByZero s).inputsTaken = s.inputsTaken := rfl

end RaiseDivisionByZero

section ShiftCommand

variable (cc : CmdBits) (s : State)

@[simp] theorem shiftCommand_ri : (shiftCommand cc s).ri = s.ri := rfl
@[simp] theorem shiftCommand_rc : (shiftCommand cc s).rc = s.rc := rfl
@[simp] theorem shiftCommand_a : (shiftCommand cc s).a = s.a := rfl
@[simp] theorem shiftCommand_b : (shiftCommand cc s).b = s.b := rfl
@[simp] theorem shiftCommand_c : (shiftCommand cc s).c = s.c := rfl
@[simp] theorem shiftCommand_r1 : (shiftCommand cc s).r1 = s.r1 := rfl
@[simp] theorem shiftCommand_r2 : (shiftCommand cc s).r2 = s.r2 := rfl
@[simp] theorem shiftCommand_cmd : (shiftCommand cc s).cmd = BitRegister.shift2 s.cmd cc := rfl
@[simp] theorem shiftCommand_aluout : (shiftCommand cc s).aluout = s.aluout := rfl
@[simp] theorem shiftCommand_inbuf : (shiftCommand cc s).inbuf = s.inbuf := rfl
@[simp] theorem shiftCommand_halted : (shiftCommand cc s).halted = s.halted := rfl
@[simp] theorem shiftCommand_fault : (shiftCommand cc s).fault = s.fault := rfl
@[simp] theorem shiftCommand_rom : (shiftCommand cc s).rom = s.rom := rfl
@[simp] theorem shiftCommand_output : (shiftCommand cc s).output = s.output := rfl
@[simp] theorem shiftCommand_gpWidth : (shiftCommand cc s).gpWidth = s.gpWidth := rfl
@[simp] theorem shiftCommand_logicTable : (shiftCommand cc s).logicTable = s.logicTable := rfl
@[simp] theorem shiftCommand_inputs : (shiftCommand cc s).inputs = s.inputs := rfl
@[simp] theorem shiftCommand_supplyEnds : (shiftCommand cc s).supplyEnds = s.supplyEnds := rfl
@[simp] theorem shiftCommand_inputsTaken : (shiftCommand cc s).inputsTaken = s.inputsTaken := rfl

end ShiftCommand

section Advance

variable (s : State)

@[simp] theorem advance_ri : (advance s).ri = if BitRegister.increment s.rc = 0 then BitRegister.increment s.ri else s.ri := rfl
@[simp] theorem advance_rc : (advance s).rc = BitRegister.increment s.rc := rfl
@[simp] theorem advance_a : (advance s).a = s.a := rfl
@[simp] theorem advance_b : (advance s).b = s.b := rfl
@[simp] theorem advance_c : (advance s).c = s.c := rfl
@[simp] theorem advance_r1 : (advance s).r1 = s.r1 := rfl
@[simp] theorem advance_r2 : (advance s).r2 = s.r2 := rfl
@[simp] theorem advance_cmd : (advance s).cmd = s.cmd := rfl
@[simp] theorem advance_aluout : (advance s).aluout = s.aluout := rfl
@[simp] theorem advance_inbuf : (advance s).inbuf = s.inbuf := rfl
@[simp] theorem advance_halted : (advance s).halted = s.halted := rfl
@[simp] theorem advance_fault : (advance s).fault = s.fault := rfl
@[simp] theorem advance_rom : (advance s).rom = s.rom := rfl
@[simp] theorem advance_output : (advance s).output = s.output := rfl
@[simp] theorem advance_gpWidth : (advance s).gpWidth = s.gpWidth := rfl
@[simp] theorem advance_logicTable : (advance s).logicTable = s.logicTable := rfl
@[simp] theorem advance_inputs : (advance s).inputs = s.inputs := rfl
@[simp] theorem advance_supplyEnds : (advance s).supplyEnds = s.supplyEnds := rfl
@[simp] theorem advance_inputsTaken : (advance s).inputsTaken = s.inputsTaken := rfl

end Advance

section HaltTest

variable (s : State)

@[simp] theorem haltTest_ri : (haltTest s).ri = s.ri := rfl
@[simp] theorem haltTest_rc : (haltTest s).rc = s.rc := rfl
@[simp] theorem haltTest_a : (haltTest s).a = s.a := rfl
@[simp] theorem haltTest_b : (haltTest s).b = s.b := rfl
@[simp] theorem haltTest_c : (haltTest s).c = s.c := rfl
@[simp] theorem haltTest_r1 : (haltTest s).r1 = s.r1 := rfl
@[simp] theorem haltTest_r2 : (haltTest s).r2 = s.r2 := rfl
@[simp] theorem haltTest_cmd : (haltTest s).cmd = s.cmd := rfl
@[simp] theorem haltTest_aluout : (haltTest s).aluout = s.aluout := rfl
@[simp] theorem haltTest_inbuf : (haltTest s).inbuf = s.inbuf := rfl
@[simp] theorem haltTest_halted : (haltTest s).halted = ((s.rc == 0 && s.ri == 0) || s.halted) := rfl
@[simp] theorem haltTest_fault : (haltTest s).fault = s.fault := rfl
@[simp] theorem haltTest_rom : (haltTest s).rom = s.rom := rfl
@[simp] theorem haltTest_output : (haltTest s).output = s.output := rfl
@[simp] theorem haltTest_gpWidth : (haltTest s).gpWidth = s.gpWidth := rfl
@[simp] theorem haltTest_logicTable : (haltTest s).logicTable = s.logicTable := rfl
@[simp] theorem haltTest_inputs : (haltTest s).inputs = s.inputs := rfl
@[simp] theorem haltTest_supplyEnds : (haltTest s).supplyEnds = s.supplyEnds := rfl
@[simp] theorem haltTest_inputsTaken : (haltTest s).inputsTaken = s.inputsTaken := rfl

end HaltTest

section Emit

variable (tx : BitVec 3) (width v : Nat) (s : State)

@[simp] theorem emit_ri : (emit tx width v s).ri = s.ri := rfl
@[simp] theorem emit_rc : (emit tx width v s).rc = s.rc := rfl
@[simp] theorem emit_a : (emit tx width v s).a = s.a := rfl
@[simp] theorem emit_b : (emit tx width v s).b = s.b := rfl
@[simp] theorem emit_c : (emit tx width v s).c = s.c := rfl
@[simp] theorem emit_r1 : (emit tx width v s).r1 = s.r1 := rfl
@[simp] theorem emit_r2 : (emit tx width v s).r2 = s.r2 := rfl
@[simp] theorem emit_cmd : (emit tx width v s).cmd = s.cmd := rfl
@[simp] theorem emit_aluout : (emit tx width v s).aluout = s.aluout := rfl
@[simp] theorem emit_inbuf : (emit tx width v s).inbuf = s.inbuf := rfl
@[simp] theorem emit_halted : (emit tx width v s).halted = s.halted := rfl
@[simp] theorem emit_fault : (emit tx width v s).fault = s.fault := rfl
@[simp] theorem emit_rom : (emit tx width v s).rom = s.rom := rfl
@[simp] theorem emit_output : (emit tx width v s).output = s.output ++ [⟨tx, width, v⟩] := rfl
@[simp] theorem emit_gpWidth : (emit tx width v s).gpWidth = s.gpWidth := rfl
@[simp] theorem emit_logicTable : (emit tx width v s).logicTable = s.logicTable := rfl
@[simp] theorem emit_inputs : (emit tx width v s).inputs = s.inputs := rfl
@[simp] theorem emit_supplyEnds : (emit tx width v s).supplyEnds = s.supplyEnds := rfl
@[simp] theorem emit_inputsTaken : (emit tx width v s).inputsTaken = s.inputsTaken := rfl

end Emit

section WriteAluout

variable (r : Int) (s : State)

@[simp] theorem writeAluout_ri : (writeAluout r s).ri = s.ri := rfl
@[simp] theorem writeAluout_rc : (writeAluout r s).rc = s.rc := rfl
@[simp] theorem writeAluout_a : (writeAluout r s).a = s.a := rfl
@[simp] theorem writeAluout_b : (writeAluout r s).b = s.b := rfl
@[simp] theorem writeAluout_c : (writeAluout r s).c = s.c := rfl
@[simp] theorem writeAluout_r1 : (writeAluout r s).r1 = s.r1 := rfl
@[simp] theorem writeAluout_r2 : (writeAluout r s).r2 = s.r2 := rfl
@[simp] theorem writeAluout_cmd : (writeAluout r s).cmd = s.cmd := rfl
@[simp] theorem writeAluout_aluout : (writeAluout r s).aluout = BitRegister.fromValue 4 r := rfl
@[simp] theorem writeAluout_inbuf : (writeAluout r s).inbuf = s.inbuf := rfl
@[simp] theorem writeAluout_halted : (writeAluout r s).halted = s.halted := rfl
@[simp] theorem writeAluout_fault : (writeAluout r s).fault = s.fault := rfl
@[simp] theorem writeAluout_rom : (writeAluout r s).rom = s.rom := rfl
@[simp] theorem writeAluout_output : (writeAluout r s).output = s.output := rfl
@[simp] theorem writeAluout_gpWidth : (writeAluout r s).gpWidth = s.gpWidth := rfl
@[simp] theorem writeAluout_logicTable : (writeAluout r s).logicTable = s.logicTable := rfl
@[simp] theorem writeAluout_inputs : (writeAluout r s).inputs = s.inputs := rfl
@[simp] theorem writeAluout_supplyEnds : (writeAluout r s).supplyEnds = s.supplyEnds := rfl
@[simp] theorem writeAluout_inputsTaken : (writeAluout r s).inputsTaken = s.inputsTaken := rfl

end WriteAluout

section BitwiseCommand

variable (f : Bool → Bool → Bool) (s : State)

@[simp] theorem bitwiseCommand_ri : (bitwiseCommand f s).ri = s.ri := rfl
@[simp] theorem bitwiseCommand_rc : (bitwiseCommand f s).rc = s.rc := rfl
@[simp] theorem bitwiseCommand_a : (bitwiseCommand f s).a = s.a := rfl
@[simp] theorem bitwiseCommand_b : (bitwiseCommand f s).b = s.b := rfl
@[simp] theorem bitwiseCommand_c : (bitwiseCommand f s).c = s.c := rfl
@[simp] theorem bitwiseCommand_r1 : (bitwiseCommand f s).r1 = s.r1 := rfl
@[simp] theorem bitwiseCommand_r2 : (bitwiseCommand f s).r2 = s.r2 := rfl
@[simp] theorem bitwiseCommand_cmd : (bitwiseCommand f s).cmd = s.cmd := rfl
@[simp] theorem bitwiseCommand_aluout : (bitwiseCommand f s).aluout = bitwiseApply f s.r1 s.r2 := rfl
@[simp] theorem bitwiseCommand_inbuf : (bitwiseCommand f s).inbuf = s.inbuf := rfl
@[simp] theorem bitwiseCommand_halted : (bitwiseCommand f s).halted = s.halted := rfl
@[simp] theorem bitwiseCommand_fault : (bitwiseCommand f s).fault = s.fault := rfl
@[simp] theorem bitwiseCommand_rom : (bitwiseCommand f s).rom = s.rom := rfl
@[simp] theorem bitwiseCommand_output : (bitwiseCommand f s).output = s.output := rfl
@[simp] theorem bitwiseCommand_gpWidth : (bitwiseCommand f s).gpWidth = s.gpWidth := rfl
@[simp] theorem bitwiseCommand_logicTable : (bitwiseCommand f s).logicTable = s.logicTable := rfl
@[simp] theorem bitwiseCommand_inputs : (bitwiseCommand f s).inputs = s.inputs := rfl
@[simp] theorem bitwiseCommand_supplyEnds : (bitwiseCommand f s).supplyEnds = s.supplyEnds := rfl
@[simp] theorem bitwiseCommand_inputsTaken : (bitwiseCommand f s).inputsTaken = s.inputsTaken := rfl

end BitwiseCommand

section AfterInput

variable (s : State)

@[simp] theorem afterInput_ri : (afterInput s).ri = s.ri := rfl
@[simp] theorem afterInput_rc : (afterInput s).rc = s.rc := rfl
@[simp] theorem afterInput_a : (afterInput s).a = s.a := rfl
@[simp] theorem afterInput_b : (afterInput s).b = s.b := rfl
@[simp] theorem afterInput_c : (afterInput s).c = s.c := rfl
@[simp] theorem afterInput_r1 : (afterInput s).r1 = s.r1 := rfl
@[simp] theorem afterInput_r2 : (afterInput s).r2 = s.r2 := rfl
@[simp] theorem afterInput_cmd : (afterInput s).cmd = s.cmd := rfl
@[simp] theorem afterInput_aluout : (afterInput s).aluout = s.aluout := rfl
@[simp] theorem afterInput_inbuf : (afterInput s).inbuf = nextInput s := rfl
@[simp] theorem afterInput_halted : (afterInput s).halted = s.halted := rfl
@[simp] theorem afterInput_fault : (afterInput s).fault = s.fault := rfl
@[simp] theorem afterInput_rom : (afterInput s).rom = s.rom := rfl
@[simp] theorem afterInput_output : (afterInput s).output = s.output := rfl
@[simp] theorem afterInput_gpWidth : (afterInput s).gpWidth = s.gpWidth := rfl
@[simp] theorem afterInput_logicTable : (afterInput s).logicTable = s.logicTable := rfl
@[simp] theorem afterInput_inputs : (afterInput s).inputs = s.inputs.tail := rfl
@[simp] theorem afterInput_supplyEnds : (afterInput s).supplyEnds = s.supplyEnds := rfl
@[simp] theorem afterInput_inputsTaken : (afterInput s).inputsTaken = s.inputsTaken + 1 := rfl

end AfterInput

section ResetRequest

variable (s : State)

@[simp] theorem resetRequest_ri : (resetRequest s).ri = 0 := rfl
@[simp] theorem resetRequest_rc : (resetRequest s).rc = 0 := rfl
@[simp] theorem resetRequest_a : (resetRequest s).a = 0 := rfl
@[simp] theorem resetRequest_b : (resetRequest s).b = 0 := rfl
@[simp] theorem resetRequest_c : (resetRequest s).c = 0 := rfl
@[simp] theorem resetRequest_r1 : (resetRequest s).r1 = 0 := rfl
@[simp] theorem resetRequest_r2 : (resetRequest s).r2 = 0 := rfl
@[simp] theorem resetRequest_cmd : (resetRequest s).cmd = 0 := rfl
@[simp] theorem resetRequest_aluout : (resetRequest s).aluout = 0 := rfl
@[simp] theorem resetRequest_inbuf : (resetRequest s).inbuf = 0 := rfl
@[simp] theorem resetRequest_halted : (resetRequest s).halted = false := rfl
@[simp] theorem resetRequest_fault : (resetRequest s).fault = none := rfl
@[simp] theorem resetRequest_rom : (resetRequest s).rom = s.rom := rfl
@[simp] theorem resetRequest_output : (resetRequest s).output = [] := rfl
@[simp] theorem resetRequest_gpWidth : (resetRequest s).gpWidth = s.gpWidth := rfl
@[simp] theorem resetRequest_logicTable : (resetRequest s).logicTable = s.logicTable := rfl
@[simp] theorem resetRequest_inputs : (resetRequest s).inputs = s.inputs := rfl
@[simp] theorem resetRequest_supplyEnds : (resetRequest s).supplyEnds = s.supplyEnds := rfl
@[simp] theorem resetRequest_inputsTaken : (resetRequest s).inputsTaken = s.inputsTaken := rfl

end ResetRequest

section Finish

variable (s : State)

@[simp] theorem finish_ri : (finish s).ri = (advance s).ri := rfl
@[simp] theorem finish_rc : (finish s).rc = (advance s).rc := rfl
@[simp] theorem finish_a : (finish s).a = s.a := rfl
@[simp] theorem finish_b : (finish s).b = s.b := rfl
@[simp] theorem finish_c : (finish s).c = s.c := rfl
@[simp] theorem finish_r1 : (finish s).r1 = s.r1 := rfl
@[simp] theorem finish_r2 : (finish s).r2 = s.r2 := rfl
@[simp] theorem finish_cmd : (finish s).cmd = s.cmd := rfl
@[simp] theorem finish_aluout : (finish s).aluout = s.aluout := rfl
@[simp] theorem finish_inbuf : (finish s).inbuf = s.inbuf := rfl
theorem finish_halted : (finish s).halted = (haltTest (advance s)).halted := rfl
@[simp] theorem finish_fault : (finish s).fault = s.fault := rfl
@[simp] theorem finish_rom : (finish s).rom = s.rom := rfl
@[simp] theorem finish_output : (finish s).output = s.output := rfl
@[simp] theorem finish_gpWidth : (finish s).gpWidth = s.gpWidth := rfl
@[simp] theorem finish_logicTable : (finish s).logicTable = s.logicTable := rfl
@[simp] theorem finish_inputs : (finish s).inputs = s.inputs := rfl
@[simp] theorem finish_supplyEnds : (finish s).supplyEnds = s.supplyEnds := rfl
@[simp] theorem finish_inputsTaken : (finish s).inputsTaken = s.inputsTaken := rfl

end Finish

section Load

variable (dst : Dest) (v : Nat) (s : State)

@[simp] theorem loadRegister_ri : (loadRegister .ri v s) = { s with ri := BitRegister.parallelLoad 3 v } := rfl
@[simp] theorem loadRegister_keeps_rc : (loadRegister dst v s).rc = s.rc := by cases dst <;> rfl
@[simp] theorem loadRegister_a : (loadRegister .a v s) = { s with a := loadGp s.gpWidth v } := rfl
@[simp] theorem loadRegister_b : (loadRegister .b v s) = { s with b := loadGp s.gpWidth v } := rfl
@[simp] theorem loadRegister_c : (loadRegister .c v s) = { s with c := loadGp s.gpWidth v } := rfl
@[simp] theorem loadRegister_r1 : (loadRegister .r1 v s) = { s with r1 := BitRegister.parallelLoad 4 v } := rfl
@[simp] theorem loadRegister_r2 : (loadRegister .r2 v s) = { s with r2 := BitRegister.parallelLoad 4 v } := rfl
@[simp] theorem loadRegister_keeps_cmd : (loadRegister dst v s).cmd = s.cmd := by cases dst <;> rfl
@[simp] theorem loadRegister_keeps_aluout : (loadRegister dst v s).aluout = s.aluout := by cases dst <;> rfl
@[simp] theorem loadRegister_keeps_inbuf : (loadRegister dst v s).inbuf = s.inbuf := by cases dst <;> rfl
@[simp] theorem loadRegister_keeps_halted : (loadRegister dst v s).halted = s.halted := by cases dst <;> rfl
@[simp] theorem loadRegister_keeps_fault : (loadRegister dst v s).fault = s.fault := by cases dst <;> rfl
@[simp] theorem loadRegister_keeps_rom : (loadRegister dst v s).rom = s.rom := by cases dst <;> rfl
@[simp] theorem loadRegister_keeps_output : (loadRegister dst v s).output = s.output := by cases dst <;> rfl
@[simp] theorem loadRegister_keeps_gpWidth : (loadRegister dst v s).gpWidth = s.gpWidth := by cases dst <;> rfl
@[simp] theorem loadRegister_keeps_logicTable : (loadRegister dst v s).logicTable = s.logicTable := by cases dst <;> rfl
@[simp] theorem loadRegister_keeps_inputs : (loadRegister dst v s).inputs = s.inputs := by cases dst <;> rfl
@[simp] theorem loadRegister_keeps_supplyEnds : (loadRegister dst v s).supplyEnds = s.supplyEnds := by cases dst <;> rfl
@[simp] theorem loadRegister_keeps_inputsTaken : (loadRegister dst v s).inputsTaken = s.inputsTaken := by cases dst <;> rfl

/-- Loading a general register keeps the value modulo 2^GP_W. -/
@[simp] theorem toNat_loadGp (g : GpWidth) (v : Nat) : (loadGp g v).toNat = v % 2 ^ g.bits := by
  have hb : 2 ^ g.bits ≤ 2 ^ 5 := by cases g <;> decide
  have hv : v % 2 ^ g.bits < 2 ^ g.bits := Nat.mod_lt _ (Nat.two_pow_pos _)
  simp only [loadGp, BitRegister.parallelLoad, BitVec.toNat_setWidth, BitVec.toNat_ofNat]
  exact Nat.mod_eq_of_lt (by omega)

/-- The word that loading a general register stores. -/
theorem loadGp_eq (g : GpWidth) (v : Nat) : loadGp g v = BitVec.ofNat 5 (v % 2 ^ g.bits) := by
  apply BitVec.eq_of_toNat_eq
  have h := (loadGp g v).isLt
  rw [toNat_loadGp] at h
  rw [toNat_loadGp, BitVec.toNat_ofNat, Nat.mod_eq_of_lt h]

/-- A loaded general register holds a value of its width. -/
theorem loadGp_lt (g : GpWidth) (v : Nat) : (loadGp g v).toNat < 2 ^ g.bits := by
  rw [toNat_loadGp]
  exact Nat.mod_lt _ (Nat.two_pow_pos _)

end Load

section Complete

variable (dst : Dest) (cc : CmdBits) (s : State)

theorem completeStep_ri : (completeStep dst cc s).ri = (advance s).ri := by unfold completeStep; split <;> rfl
theorem completeStep_rc : (completeStep dst cc s).rc = (advance s).rc := by unfold completeStep; split <;> rfl
@[simp] theorem completeStep_a : (completeStep dst cc s).a = s.a := by unfold completeStep; split <;> rfl
@[simp] theorem completeStep_b : (completeStep dst cc s).b = s.b := by unfold completeStep; split <;> rfl
@[simp] theorem completeStep_c : (completeStep dst cc s).c = s.c := by unfold completeStep; split <;> rfl
@[simp] theorem completeStep_r1 : (completeStep dst cc s).r1 = s.r1 := by unfold completeStep; split <;> rfl
@[simp] theorem completeStep_r2 : (completeStep dst cc s).r2 = s.r2 := by unfold completeStep; split <;> rfl
theorem completeStep_cmd :
    (completeStep dst cc s).cmd = if shiftsCommand dst then BitRegister.shift2 s.cmd cc else s.cmd := by
  unfold completeStep; split <;> rfl
@[simp] theorem completeStep_aluout : (completeStep dst cc s).aluout = s.aluout := by unfold completeStep; split <;> rfl
@[simp] theorem completeStep_inbuf : (completeStep dst cc s).inbuf = s.inbuf := by unfold completeStep; split <;> rfl
theorem completeStep_halted : (completeStep dst cc s).halted = (finish s).halted := by
  unfold completeStep; split <;> rfl
@[simp] theorem completeStep_fault : (completeStep dst cc s).fault = s.fault := by unfold completeStep; split <;> rfl
@[simp] theorem completeStep_rom : (completeStep dst cc s).rom = s.rom := by unfold completeStep; split <;> rfl
@[simp] theorem completeStep_output : (completeStep dst cc s).output = s.output := by unfold completeStep; split <;> rfl
@[simp] theorem completeStep_gpWidth : (completeStep dst cc s).gpWidth = s.gpWidth := by unfold completeStep; split <;> rfl
@[simp] theorem completeStep_logicTable : (completeStep dst cc s).logicTable = s.logicTable := by unfold completeStep; split <;> rfl
@[simp] theorem completeStep_inputs : (completeStep dst cc s).inputs = s.inputs := by unfold completeStep; split <;> rfl
@[simp] theorem completeStep_supplyEnds : (completeStep dst cc s).supplyEnds = s.supplyEnds := by unfold completeStep; split <;> rfl
@[simp] theorem completeStep_inputsTaken : (completeStep dst cc s).inputsTaken = s.inputsTaken := by unfold completeStep; split <;> rfl

end Complete

end Sys2Proof.Machine
end

