-- ==== Sys2Proof/Laws/Step.lean ====
section
/-! SUPPORT. For each shared operation of a step, one lemma that says all it can do: the fault test, the evaluation, the input
read, resolving a source, the bus transfer, and the step itself. -/

namespace Sys2Proof.Machine

/-- The fault test: CMD is 1 or 8, and R2 is 0 (R203). -/
theorem divisionFault_iff (s : State) : divisionFault s = true ↔ (s.cmd = 1 ∨ s.cmd = 8) ∧ s.r2 = 0 := by
  simp [divisionFault]

/-- A running engine is not stopped, and only that. -/
theorem running_iff (s : State) : Running s ↔ stopped s = false := by
  simp [Running, stopped]

/-- Each value of CMD evaluates as the instruction it decodes to (R98). -/
theorem aluEvaluate_eq_exec (s : State) : aluEvaluate s = exec (decodeAluCommand s.cmd) s := by
  have h : ∀ c : CmdWord, ∀ s : State, s.cmd = c → aluEvaluate s = exec (decodeAluCommand c) s := by
    intro c s hc
    unfold aluEvaluate
    rw [hc]
    revert c
    intro c _
    obtain ⟨n, hn⟩ : ∃ n : Fin 32, c = BitVec.ofFin n := ⟨c.toFin, rfl⟩
    subst hn
    fin_cases n <;> rfl
  exact h s.cmd s rfl

/-- An ALU command that finds no zero divisor writes ALUOUT and nothing else (R160). -/
theorem aluEvaluate_next {s : State} (h : divisionFault s = false) :
    ∃ v, aluEvaluate s = .next { s with aluout := v } := by
  have hd : ∀ P : Prop, (s.cmd = 1 ∨ s.cmd = 8) → (s.r2 = 0 → P) := by
    intro P hc h0
    have := (divisionFault_iff s).2 ⟨hc, h0⟩
    simp [h] at this
  unfold aluEvaluate
  split
  case h_2 hc =>
    have hc : s.cmd = 1 := BitVec.eq_of_toNat_eq hc
    unfold execAlu1Divide
    split
    · exact hd _ (.inl hc) ‹_›
    · exact ⟨_, rfl⟩
  case h_9 hc =>
    have hc : s.cmd = 8 := BitVec.eq_of_toNat_eq hc
    unfold execAlu8Modulo
    split
    · exact hd _ (.inr hc) ‹_›
    · exact ⟨_, rfl⟩
  all_goals exact ⟨_, rfl⟩

/-- The input read with an answer listed or to come (R204). -/
theorem inRead_ready {s : State} (h : InputReady s) : inRead s = some (afterInput s) := by
  unfold inRead afterInput nextInput
  cases hi : s.inputs with
  | cons v rest => rfl
  | nil =>
    have : s.supplyEnds = false := h.resolve_left (fun h => h hi)
    simp [this]

/-- The input read with no answer to come (R343). -/
theorem inRead_none {s : State} (h : ¬ InputReady s) : inRead s = none := by
  simp only [InputReady, not_or, not_not, Bool.not_eq_false] at h
  simp [inRead, h.1, h.2]

/-- What resolving a source can give: a register's value, ALUOUT after an evaluation, INBUF after a read, nothing for S6 and S7,
the fault, or a wait without end. -/
theorem resolve_cases (src : Source) (s : State) :
    (src = .ri ∧ resolve src s = .value s 3 s.ri.toNat) ∨
    (src = .a ∧ resolve src s = .value s s.gpWidth.bits s.a.toNat) ∨
    (src = .b ∧ resolve src s = .value s s.gpWidth.bits s.b.toNat) ∨
    (src = .c ∧ resolve src s = .value s s.gpWidth.bits s.c.toNat) ∨
    (src = .alu ∧ divisionFault s = false ∧
      ∃ v, aluEvaluate s = .next { s with aluout := v } ∧ resolve src s = .value { s with aluout := v } 4 v.toNat) ∨
    (src = .alu ∧ divisionFault s = true ∧ resolve src s = .ends (.next (raiseDivisionByZero s))) ∨
    (src = .input ∧ InputReady s ∧ resolve src s = .value (afterInput s) 4 (nextInput s).toNat) ∨
    (src = .input ∧ ¬ InputReady s ∧ resolve src s = .ends (.fault .waitsForInput)) ∨
    ((src = .s6 ∨ src = .s7) ∧ resolve src s = .unresolved s) := by
  cases src
  case alu =>
    cases h : divisionFault s with
    | false =>
      obtain ⟨v, hv⟩ := aluEvaluate_next h
      simp [resolve, resolveAlu, h, hv]
    | true => simp [resolve, resolveAlu, h]
  case input =>
    by_cases h : InputReady s
    · simp [resolve, resolveInput, inRead_ready h, h]
    · simp [resolve, resolveInput, inRead_none h, h]
  all_goals simp [resolve]

/-- Every microword operation is one bus transfer of its two selectors (R96, R211). -/
theorem exec_microwordOf (src : Source) (dst : Dest) (cc : CmdBits) (s : State) :
    exec (microwordOf src dst cc) s = busStep src dst cc s := by
  cases src <;> cases dst <;> rfl

/-- A step of a running engine is the bus transfer of the fetched word's fields (R201, R202). -/
theorem step_running {s : State} (h : Running s) :
    step s = busStep (sourceOf ((fetch s).extractLsb' 5 3)) (destOf ((fetch s).extractLsb' 2 3)) ((fetch s).extractLsb' 0 2) s := by
  rw [running_iff] at h
  simp only [step, h, decodeMicroword, exec_microwordOf]
  rfl

/-- A step of a stopped engine changes nothing (R200). -/
theorem step_stopped {s : State} (h : stopped s = true) : step s = .next s := by
  simp [step, h]

@[simp] theorem run_zero (s : State) : Host.Core.run Sys2Proof.core 0 s = .next s := rfl

/-- A run of one more step, where the first step has a next state. -/
theorem run_succ_of_next {s t : State} (h : step s = .next t) (k : Nat) :
    Host.Core.run Sys2Proof.core (k + 1) s = Host.Core.run Sys2Proof.core k t := by
  simp only [Host.Core.run, Sys2Proof.core, h]

/-- A run of one more step, where the first step is stuck. -/
theorem run_succ_of_fault {s : State} {f : Fault} (h : step s = .fault f) (k : Nat) :
    Host.Core.run Sys2Proof.core (k + 1) s = .fault f := by
  simp only [Host.Core.run, Sys2Proof.core, h]

/-- A run of one more step, where the first step is refused. -/
theorem run_succ_of_refused {s : State} {r : Refusal} (h : step s = .refused r) (k : Nat) :
    Host.Core.run Sys2Proof.core (k + 1) s = .refused r := by
  simp only [Host.Core.run, Sys2Proof.core, h]

end Sys2Proof.Machine
end

