-- ==== Sys2Proof/Laws/Bus.lean ====
section
/-! SUPPORT. What a whole step and a run can do: the inversion of a bus transfer, what delivering a value leaves alone, and the
induction over a run. -/

namespace Sys2Proof.Machine

/-- What a bus transfer with a next state did: the fault, no transfer, or one value of its source delivered and the step
completed (R203-R211). -/
theorem busStep_cases {src dst cc} {s t : State} (h : busStep src dst cc s = .next t) :
    (src = .alu ∧ divisionFault s = true ∧ t = raiseDivisionByZero s) ∨
    ((src = .s6 ∨ src = .s7) ∧ t = completeStep dst cc s) ∨
    (∃ e w v, t = completeStep dst cc (deliver src dst w v e) ∧
      ((src = .ri ∧ e = s ∧ w = 3 ∧ v = s.ri.toNat) ∨ (src = .a ∧ e = s ∧ w = s.gpWidth.bits ∧ v = s.a.toNat) ∨ (src = .b ∧ e = s ∧ w = s.gpWidth.bits ∧ v = s.b.toNat) ∨
       (src = .c ∧ e = s ∧ w = s.gpWidth.bits ∧ v = s.c.toNat) ∨ (src = .alu ∧ divisionFault s = false ∧ ∃ x : Nibble, e = {s with aluout := x} ∧ w = 4 ∧ v = x.toNat) ∨
       (src = .input ∧ InputReady s ∧ e = afterInput s ∧ w = 4 ∧ v = (nextInput s).toNat))) := by
  unfold busStep at h
  rcases resolve_cases src s with ⟨hs, hr⟩ | ⟨hs, hr⟩ | ⟨hs, hr⟩ | ⟨hs, hr⟩ | ⟨hs, hf, v, hv, hr⟩ | ⟨hs, hf, hr⟩ | ⟨hs, hi, hr⟩ | ⟨hs, hi, hr⟩ | ⟨hs, hr⟩
  all_goals rw [hr] at h
  all_goals simp only [Host.Outcome.next.injEq, reduceCtorEq] at h
  all_goals subst h
  · exact .inr (.inr ⟨_, _, _, rfl, .inl ⟨hs, rfl, rfl, rfl⟩⟩)
  · exact .inr (.inr ⟨_, _, _, rfl, .inr (.inl ⟨hs, rfl, rfl, rfl⟩)⟩)
  · exact .inr (.inr ⟨_, _, _, rfl, .inr (.inr (.inl ⟨hs, rfl, rfl, rfl⟩))⟩)
  · exact .inr (.inr ⟨_, _, _, rfl, .inr (.inr (.inr (.inl ⟨hs, rfl, rfl, rfl⟩)))⟩)
  · exact .inr (.inr ⟨_, _, _, rfl, .inr (.inr (.inr (.inr (.inl ⟨hs, hf, v, rfl, rfl, rfl⟩))))⟩)
  · exact .inl ⟨hs, hf, rfl⟩
  · exact .inr (.inr ⟨_, _, _, rfl, .inr (.inr (.inr (.inr (.inr ⟨hs, hi, rfl, rfl, rfl⟩))))⟩)
  · exact .inr (.inl ⟨hs, rfl⟩)

/-- The source's side effects leave everything but ALUOUT, INBUF and the supplier's record alone; here, a field that neither
side effect writes. -/
theorem busStep_source_keeps {α : Type} (f : State → α) (ha : ∀ (s : State) (x : Nibble), f { s with aluout := x } = f s)
    (hi : ∀ s : State, f (afterInput s) = f s) {src : Source} {dst : Dest} {cc : CmdBits} {s t : State}
    (h : busStep src dst cc s = .next t) :
    (src = .alu ∧ divisionFault s = true ∧ t = raiseDivisionByZero s) ∨
    ((src = .s6 ∨ src = .s7) ∧ t = completeStep dst cc s) ∨
    ∃ e w v, t = completeStep dst cc (deliver src dst w v e) ∧ f e = f s := by
  rcases busStep_cases h with h | h | ⟨e, w, v, rfl, hc⟩
  · exact .inl h
  · exact .inr (.inl h)
  · refine .inr (.inr ⟨e, w, v, rfl, ?_⟩)
    rcases hc with ⟨-, rfl, -⟩ | ⟨-, rfl, -⟩ | ⟨-, rfl, -⟩ | ⟨-, rfl, -⟩ | ⟨-, -, x, rfl, -⟩ | ⟨-, -, rfl, -⟩
    · rfl
    · rfl
    · rfl
    · rfl
    · exact ha s x
    · exact hi s

@[simp] theorem deliver_rc (src : Source) (dst : Dest) (w v : Nat) (s : State) :
    (deliver src dst w v s).rc = s.rc := by
  unfold deliver
  split <;> (try split) <;> simp

@[simp] theorem deliver_cmd (src : Source) (dst : Dest) (w v : Nat) (s : State) :
    (deliver src dst w v s).cmd = s.cmd := by
  unfold deliver
  split <;> (try split) <;> simp

@[simp] theorem deliver_aluout (src : Source) (dst : Dest) (w v : Nat) (s : State) :
    (deliver src dst w v s).aluout = s.aluout := by
  unfold deliver
  split <;> (try split) <;> simp

@[simp] theorem deliver_inbuf (src : Source) (dst : Dest) (w v : Nat) (s : State) :
    (deliver src dst w v s).inbuf = s.inbuf := by
  unfold deliver
  split <;> (try split) <;> simp

@[simp] theorem deliver_halted (src : Source) (dst : Dest) (w v : Nat) (s : State) :
    (deliver src dst w v s).halted = s.halted := by
  unfold deliver
  split <;> (try split) <;> simp

@[simp] theorem deliver_fault (src : Source) (dst : Dest) (w v : Nat) (s : State) :
    (deliver src dst w v s).fault = s.fault := by
  unfold deliver
  split <;> (try split) <;> simp

@[simp] theorem deliver_rom (src : Source) (dst : Dest) (w v : Nat) (s : State) :
    (deliver src dst w v s).rom = s.rom := by
  unfold deliver
  split <;> (try split) <;> simp

@[simp] theorem deliver_gpWidth (src : Source) (dst : Dest) (w v : Nat) (s : State) :
    (deliver src dst w v s).gpWidth = s.gpWidth := by
  unfold deliver
  split <;> (try split) <;> simp

@[simp] theorem deliver_logicTable (src : Source) (dst : Dest) (w v : Nat) (s : State) :
    (deliver src dst w v s).logicTable = s.logicTable := by
  unfold deliver
  split <;> (try split) <;> simp

@[simp] theorem deliver_inputs (src : Source) (dst : Dest) (w v : Nat) (s : State) :
    (deliver src dst w v s).inputs = s.inputs := by
  unfold deliver
  split <;> (try split) <;> simp

@[simp] theorem deliver_supplyEnds (src : Source) (dst : Dest) (w v : Nat) (s : State) :
    (deliver src dst w v s).supplyEnds = s.supplyEnds := by
  unfold deliver
  split <;> (try split) <;> simp

@[simp] theorem deliver_inputsTaken (src : Source) (dst : Dest) (w v : Nat) (s : State) :
    (deliver src dst w v s).inputsTaken = s.inputsTaken := by
  unfold deliver
  split <;> (try split) <;> simp

/-- A completed step that began running is halted exactly when it ends at the origin (R210). -/
theorem completeStep_halted_iff (dst : Dest) (cc : CmdBits) (s : State) (h : s.halted = false) :
    (completeStep dst cc s).halted = true ↔ (completeStep dst cc s).ri = 0 ∧ (completeStep dst cc s).rc = 0 := by
  rw [completeStep_halted, completeStep_ri, completeStep_rc, finish_halted]; simp [h]; tauto

/-- A step with a next state: a stopped engine unchanged, or the bus transfer of the fetched word. -/
theorem step_cases {s t : State} (h : step s = .next t) :
    (stopped s = true ∧ t = s) ∨
    (Running s ∧ busStep (sourceOf ((fetch s).extractLsb' 5 3)) (destOf ((fetch s).extractLsb' 2 3))
      ((fetch s).extractLsb' 0 2) s = .next t) := by
  by_cases hr : Running s
  · right; exact ⟨hr, by rw [← step_running hr]; exact h⟩
  · have : stopped s = true := by rw [← Bool.not_eq_false, ← running_iff]; exact hr
    rw [step_stopped this] at h; cases h; exact .inl ⟨this, rfl⟩

/-- What every step keeps, a run keeps. -/
theorem run_induct (P : State → Prop) (hs : ∀ s t, P s → step s = .next t → P t) :
    ∀ (k : Nat) (s t : State), P s → Host.Core.run Sys2Proof.core k s = .next t → P t := by
  intro k
  induction k with
  | zero => intro s t h ht; cases ht; exact h
  | succ k ih =>
    intro s t h ht
    cases hst : step s with
    | next u => rw [run_succ_of_next hst] at ht; exact ih u t (hs s u h hst) ht
    | fault f => rw [run_succ_of_fault hst] at ht; cases ht
    | refused f => rw [run_succ_of_refused hst] at ht; cases ht

end Sys2Proof.Machine
end

