-- ==== Sys2Proof/Laws/Decode.lean ====
section
/-! SUPPORT. The small lemmas of the decoder and the encoder: selectors and their codes, and the fields of an operation. -/

namespace Sys2Proof

@[simp] theorem sourceOf_code (src : Source) : sourceOf src.code = src := by cases src <;> rfl

@[simp] theorem destOf_code (dst : Dest) : destOf dst.code = dst := by cases dst <;> rfl

@[simp] theorem code_sourceOf (tx : BitVec 3) : (sourceOf tx).code = tx := by revert tx; decide

@[simp] theorem code_destOf (rx : BitVec 3) : (destOf rx).code = rx := by revert rx; decide

@[simp] theorem fields_microwordOf (src : Source) (dst : Dest) (cc : CmdBits) :
    (microwordOf src dst cc).fields = .mov src dst cc := by cases src <;> cases dst <;> rfl

@[simp] theorem format_microwordOf (src : Source) (dst : Dest) (cc : CmdBits) :
    (microwordOf src dst cc).format = .microword := by cases src <;> cases dst <;> rfl

/-- An operation is rebuilt from its fields. -/
theorem microwordOf_of_fields {i : Instr} {src : Source} {dst : Dest} {cc : CmdBits} (h : i.fields = .mov src dst cc) :
    i = microwordOf src dst cc := by
  cases i <;> cases h <;> rfl

/-- A command is rebuilt from its number. -/
theorem decodeAluCommand_of_fields {i : Instr} {cmd : CmdWord} (h : i.fields = .command cmd) :
    decodeAluCommand cmd = i := by
  cases i <;> cases h <;> rfl

@[simp] theorem fields_decodeAluCommand (cmd : CmdWord) : (decodeAluCommand cmd).fields = .command cmd := by
  revert cmd; decide

/-- The format follows the fields. -/
theorem format_of_fields_mov {i : Instr} {src : Source} {dst : Dest} {cc : CmdBits} (h : i.fields = .mov src dst cc) :
    i.format = .microword := by
  rw [microwordOf_of_fields h, format_microwordOf]

/-- The format follows the fields. -/
theorem format_of_fields_command {i : Instr} {cmd : CmdWord} (h : i.fields = .command cmd) : i.format = .aluCommand := by
  cases i <;> cases h <;> rfl

/-- The three fields of a word written from them (R90). -/
theorem decodeMicroword_append (tx rx : BitVec 3) (cc : CmdBits) :
    decodeMicroword (tx ++ rx ++ cc) = microwordOf (sourceOf tx) (destOf rx) cc := by
  have h : ∀ (tx rx : BitVec 3) (cc : CmdBits), (tx ++ rx ++ cc).extractLsb' 5 3 = tx ∧
      (tx ++ rx ++ cc).extractLsb' 2 3 = rx ∧ (tx ++ rx ++ cc).extractLsb' 0 2 = cc := by decide
  obtain ⟨h1, h2, h3⟩ := h tx rx cc
  simp only [decodeMicroword]
  rw [h1, h2, h3]

end Sys2Proof
end

