-- ==== Sys2Proof/Laws/Memory.lean ====
section
/-! SUPPORT. The laws of the microcode store: read after write, and the canonical form. -/

namespace Sys2Proof.Machine

/-- Reading below the lowest index a canonical store lists gives the default. -/
theorem Memory.read_of_lt {m : Memory} {lo n : Nat} (h : Memory.wfFrom lo m = true) (hn : n < lo) :
    Memory.read m n = Memory.unlisted := by
  induction m generalizing lo with
  | nil => rfl
  | cons p rest ih =>
    obtain ⟨k, v⟩ := p
    simp only [Memory.wfFrom, Bool.and_eq_true, decide_eq_true_eq] at h
    obtain ⟨⟨⟨h1, -⟩, -⟩, h4⟩ := h
    have hk : k ≠ n := by omega
    simp only [Memory.read, hk, if_false]
    exact ih h4 (by omega)

/-- A canonical store is canonical from any smaller bound. -/
theorem Memory.wfFrom_mono {m : Memory} {lo lo' : Nat} (h : Memory.wfFrom lo m = true) (hl : lo' ≤ lo) :
    Memory.wfFrom lo' m = true := by
  cases m with
  | nil => rfl
  | cons p rest =>
    obtain ⟨k, v⟩ := p
    simp only [Memory.wfFrom, Bool.and_eq_true, decide_eq_true_eq] at h ⊢
    obtain ⟨⟨⟨h1, h2⟩, h3⟩, h4⟩ := h
    exact ⟨⟨⟨by omega, h2⟩, h3⟩, h4⟩

/-- A write reads back at its index and leaves every other index alone. -/
theorem Memory.read_write {m : Memory} {lo : Nat} (h : Memory.wfFrom lo m = true) (n k : Nat) (v : Byte) :
    Memory.read (Memory.write m n v) k = if k = n then v else Memory.read m k := by
  induction m generalizing lo with
  | nil =>
    by_cases hv : v = Memory.unlisted <;> by_cases hk : k = n
    · simp [Memory.write, Memory.read, hv, hk]
    · simp [Memory.write, Memory.read, hv, hk]
    · simp [Memory.write, Memory.read, hv, hk]
    · simp [Memory.write, Memory.read, hv, hk, Ne.symm hk]
  | cons p rest ih =>
    obtain ⟨j, x⟩ := p
    have h' := h
    simp only [Memory.wfFrom, Bool.and_eq_true, decide_eq_true_eq] at h
    obtain ⟨⟨⟨h1, h2⟩, h3⟩, h4⟩ := h
    unfold Memory.write
    by_cases hlt : n < j
    · simp only [hlt, if_true]
      by_cases hv : v = Memory.unlisted
      · simp only [hv, if_true]
        by_cases hk : k = n
        · subst hk
          have hne : j ≠ k := by omega
          simp only [Memory.read, hne, if_false, if_true]
          exact Memory.read_of_lt h4 (by omega)
        · simp [hk]
      · simp only [hv, if_false]
        by_cases hk : k = n
        · simp [Memory.read, hk]
        · simp [Memory.read, hk, Ne.symm hk]
    · simp only [hlt, if_false]
      by_cases hnj : n = j
      · subst hnj
        simp only [if_true]
        by_cases hv : v = Memory.unlisted
        · simp only [hv, if_true]
          by_cases hk : k = n
          · subst hk
            simp only [if_true]
            exact Memory.read_of_lt h4 (by omega)
          · simp [Memory.read, hk, Ne.symm hk]
        · simp only [hv, if_false]
          by_cases hk : k = n
          · simp [Memory.read, hk]
          · simp [Memory.read, hk, Ne.symm hk]
      · simp only [hnj, if_false, Memory.read, ih h4]
        by_cases hkj : j = k
        · have : k ≠ n := by omega
          simp [hkj, this]
        · simp [hkj]

/-- A write inside the ROM keeps the canonical form. -/
theorem Memory.wfFrom_write {m : Memory} {lo : Nat} (h : Memory.wfFrom lo m = true) {n : Nat} (hlo : lo ≤ n) (hn : n < 32)
    (v : Byte) : Memory.wfFrom lo (Memory.write m n v) = true := by
  induction m generalizing lo with
  | nil => by_cases hv : v = Memory.unlisted <;> simp [Memory.write, Memory.wfFrom, hv, hlo, hn]
  | cons p rest ih =>
    obtain ⟨j, x⟩ := p
    have h' := h
    simp only [Memory.wfFrom, Bool.and_eq_true, decide_eq_true_eq] at h
    obtain ⟨⟨⟨h1, h2⟩, h3⟩, h4⟩ := h
    unfold Memory.write
    by_cases hlt : n < j
    · by_cases hv : v = Memory.unlisted
      · simpa [hlt, hv] using h'
      · simp [hlt, hv, Memory.wfFrom, hlo, hn, h2, h3, h4]
    · by_cases hnj : n = j
      · subst hnj
        by_cases hv : v = Memory.unlisted
        · simpa [hv] using Memory.wfFrom_mono h4 (by omega)
        · simp [hv, Memory.wfFrom, hlo, hn, h4]
      · simp only [hlt, hnj, if_false, Memory.wfFrom, Bool.and_eq_true, decide_eq_true_eq]
        exact ⟨⟨⟨h1, h2⟩, h3⟩, ih h4 (by omega)⟩

/-- A write inside the ROM keeps the canonical form. -/
theorem Memory.wf_write {m : Memory} (h : m.wf = true) {n : Nat} (hn : n < 32) (v : Byte) : (m.write n v).wf = true :=
  Memory.wfFrom_write h (Nat.zero_le n) hn v

/-- Storing words keeps the canonical form. -/
theorem storeWords_wf (words : List Byte) (n : Nat) {m : Memory} (h : m.wf = true) : (storeWords words n m).wf = true := by
  induction words generalizing n m with
  | nil => exact h
  | cons w rest ih =>
    unfold storeWords
    split
    · exact ih (n + 1) (Memory.wf_write h ‹_› w)
    · exact h

/-- The ROM an image gives is in canonical form. -/
theorem romOfImage_wf (image : List Char) : (romOfImage image).wf = true :=
  storeWords_wf _ 0 rfl

/-- The ROM of the reset state is canonical. -/
theorem reset_rom_wf : State.reset.rom.wf = true := rfl

/-- Every index the decoder forms is inside the ROM (R62). -/
theorem romIndex_lt (ri : SlotWord) (rc : CycleWord) : romIndex ri rc < 32 := by
  have := ri.isLt
  have := rc.isLt
  unfold romIndex
  omega

/-- Placing an instruction keeps the canonical form of the ROM. -/
theorem placeMicroword_rom_wf {rom : Memory} (h : rom.wf = true) (ri : SlotWord) (rc : CycleWord) (w : Byte) :
    (rom.write (romIndex ri rc) w).wf = true :=
  Memory.wf_write h (romIndex_lt ri rc) w

end Sys2Proof.Machine
end

