-- ==== Sys2Proof/Laws/PerInstr.lean ====
section
/-! SUPPORT. Statements made per instruction: each instruction's encoding fits the row the opcode table gives it
(30_encoding.md R96, R98). -/

namespace Sys2Proof.Laws

/-- The encoding of an instruction has its row's format, and its row's pattern under its row's mask. -/
def FitsTableRow.Statement (i : Instr) : Prop :=
  (encode i).fits i.row = true

theorem FitsTableRow.movRiRi (cc : CmdBits) : FitsTableRow.Statement (.movRiRi cc) := by
  revert cc; unfold FitsTableRow.Statement; decide

theorem FitsTableRow.movARi (cc : CmdBits) : FitsTableRow.Statement (.movARi cc) := by
  revert cc; unfold FitsTableRow.Statement; decide

theorem FitsTableRow.movBRi (cc : CmdBits) : FitsTableRow.Statement (.movBRi cc) := by
  revert cc; unfold FitsTableRow.Statement; decide

theorem FitsTableRow.movCRi (cc : CmdBits) : FitsTableRow.Statement (.movCRi cc) := by
  revert cc; unfold FitsTableRow.Statement; decide

theorem FitsTableRow.movR1Ri (cc : CmdBits) : FitsTableRow.Statement (.movR1Ri cc) := by
  revert cc; unfold FitsTableRow.Statement; decide

theorem FitsTableRow.movR2Ri (cc : CmdBits) : FitsTableRow.Statement (.movR2Ri cc) := by
  revert cc; unfold FitsTableRow.Statement; decide

theorem FitsTableRow.movOutRi (cc : CmdBits) : FitsTableRow.Statement (.movOutRi cc) := by
  revert cc; unfold FitsTableRow.Statement; decide

theorem FitsTableRow.movD7Ri (cc : CmdBits) : FitsTableRow.Statement (.movD7Ri cc) := by
  revert cc; unfold FitsTableRow.Statement; decide

theorem FitsTableRow.movRiA (cc : CmdBits) : FitsTableRow.Statement (.movRiA cc) := by
  revert cc; unfold FitsTableRow.Statement; decide

theorem FitsTableRow.movAA (cc : CmdBits) : FitsTableRow.Statement (.movAA cc) := by
  revert cc; unfold FitsTableRow.Statement; decide

theorem FitsTableRow.movBA (cc : CmdBits) : FitsTableRow.Statement (.movBA cc) := by
  revert cc; unfold FitsTableRow.Statement; decide

theorem FitsTableRow.movCA (cc : CmdBits) : FitsTableRow.Statement (.movCA cc) := by
  revert cc; unfold FitsTableRow.Statement; decide

theorem FitsTableRow.movR1A (cc : CmdBits) : FitsTableRow.Statement (.movR1A cc) := by
  revert cc; unfold FitsTableRow.Statement; decide

theorem FitsTableRow.movR2A (cc : CmdBits) : FitsTableRow.Statement (.movR2A cc) := by
  revert cc; unfold FitsTableRow.Statement; decide

theorem FitsTableRow.movOutA (cc : CmdBits) : FitsTableRow.Statement (.movOutA cc) := by
  revert cc; unfold FitsTableRow.Statement; decide

theorem FitsTableRow.movD7A (cc : CmdBits) : FitsTableRow.Statement (.movD7A cc) := by
  revert cc; unfold FitsTableRow.Statement; decide

theorem FitsTableRow.movRiB (cc : CmdBits) : FitsTableRow.Statement (.movRiB cc) := by
  revert cc; unfold FitsTableRow.Statement; decide

theorem FitsTableRow.movAB (cc : CmdBits) : FitsTableRow.Statement (.movAB cc) := by
  revert cc; unfold FitsTableRow.Statement; decide

theorem FitsTableRow.movBB (cc : CmdBits) : FitsTableRow.Statement (.movBB cc) := by
  revert cc; unfold FitsTableRow.Statement; decide

theorem FitsTableRow.movCB (cc : CmdBits) : FitsTableRow.Statement (.movCB cc) := by
  revert cc; unfold FitsTableRow.Statement; decide

theorem FitsTableRow.movR1B (cc : CmdBits) : FitsTableRow.Statement (.movR1B cc) := by
  revert cc; unfold FitsTableRow.Statement; decide

theorem FitsTableRow.movR2B (cc : CmdBits) : FitsTableRow.Statement (.movR2B cc) := by
  revert cc; unfold FitsTableRow.Statement; decide

theorem FitsTableRow.movOutB (cc : CmdBits) : FitsTableRow.Statement (.movOutB cc) := by
  revert cc; unfold FitsTableRow.Statement; decide

theorem FitsTableRow.movD7B (cc : CmdBits) : FitsTableRow.Statement (.movD7B cc) := by
  revert cc; unfold FitsTableRow.Statement; decide

theorem FitsTableRow.movRiC (cc : CmdBits) : FitsTableRow.Statement (.movRiC cc) := by
  revert cc; unfold FitsTableRow.Statement; decide

theorem FitsTableRow.movAC (cc : CmdBits) : FitsTableRow.Statement (.movAC cc) := by
  revert cc; unfold FitsTableRow.Statement; decide

theorem FitsTableRow.movBC (cc : CmdBits) : FitsTableRow.Statement (.movBC cc) := by
  revert cc; unfold FitsTableRow.Statement; decide

theorem FitsTableRow.movCC (cc : CmdBits) : FitsTableRow.Statement (.movCC cc) := by
  revert cc; unfold FitsTableRow.Statement; decide

theorem FitsTableRow.movR1C (cc : CmdBits) : FitsTableRow.Statement (.movR1C cc) := by
  revert cc; unfold FitsTableRow.Statement; decide

theorem FitsTableRow.movR2C (cc : CmdBits) : FitsTableRow.Statement (.movR2C cc) := by
  revert cc; unfold FitsTableRow.Statement; decide

theorem FitsTableRow.movOutC (cc : CmdBits) : FitsTableRow.Statement (.movOutC cc) := by
  revert cc; unfold FitsTableRow.Statement; decide

theorem FitsTableRow.movD7C (cc : CmdBits) : FitsTableRow.Statement (.movD7C cc) := by
  revert cc; unfold FitsTableRow.Statement; decide

theorem FitsTableRow.movRiAlu (cc : CmdBits) : FitsTableRow.Statement (.movRiAlu cc) := by
  revert cc; unfold FitsTableRow.Statement; decide

theorem FitsTableRow.movAAlu (cc : CmdBits) : FitsTableRow.Statement (.movAAlu cc) := by
  revert cc; unfold FitsTableRow.Statement; decide

theorem FitsTableRow.movBAlu (cc : CmdBits) : FitsTableRow.Statement (.movBAlu cc) := by
  revert cc; unfold FitsTableRow.Statement; decide

theorem FitsTableRow.movCAlu (cc : CmdBits) : FitsTableRow.Statement (.movCAlu cc) := by
  revert cc; unfold FitsTableRow.Statement; decide

theorem FitsTableRow.movR1Alu (cc : CmdBits) : FitsTableRow.Statement (.movR1Alu cc) := by
  revert cc; unfold FitsTableRow.Statement; decide

theorem FitsTableRow.movR2Alu (cc : CmdBits) : FitsTableRow.Statement (.movR2Alu cc) := by
  revert cc; unfold FitsTableRow.Statement; decide

theorem FitsTableRow.movOutAlu (cc : CmdBits) : FitsTableRow.Statement (.movOutAlu cc) := by
  revert cc; unfold FitsTableRow.Statement; decide

theorem FitsTableRow.movD7Alu (cc : CmdBits) : FitsTableRow.Statement (.movD7Alu cc) := by
  revert cc; unfold FitsTableRow.Statement; decide

theorem FitsTableRow.movRiIn (cc : CmdBits) : FitsTableRow.Statement (.movRiIn cc) := by
  revert cc; unfold FitsTableRow.Statement; decide

theorem FitsTableRow.movAIn (cc : CmdBits) : FitsTableRow.Statement (.movAIn cc) := by
  revert cc; unfold FitsTableRow.Statement; decide

theorem FitsTableRow.movBIn (cc : CmdBits) : FitsTableRow.Statement (.movBIn cc) := by
  revert cc; unfold FitsTableRow.Statement; decide

theorem FitsTableRow.movCIn (cc : CmdBits) : FitsTableRow.Statement (.movCIn cc) := by
  revert cc; unfold FitsTableRow.Statement; decide

theorem FitsTableRow.movR1In (cc : CmdBits) : FitsTableRow.Statement (.movR1In cc) := by
  revert cc; unfold FitsTableRow.Statement; decide

theorem FitsTableRow.movR2In (cc : CmdBits) : FitsTableRow.Statement (.movR2In cc) := by
  revert cc; unfold FitsTableRow.Statement; decide

theorem FitsTableRow.movOutIn (cc : CmdBits) : FitsTableRow.Statement (.movOutIn cc) := by
  revert cc; unfold FitsTableRow.Statement; decide

theorem FitsTableRow.movD7In (cc : CmdBits) : FitsTableRow.Statement (.movD7In cc) := by
  revert cc; unfold FitsTableRow.Statement; decide

theorem FitsTableRow.movRiS6 (cc : CmdBits) : FitsTableRow.Statement (.movRiS6 cc) := by
  revert cc; unfold FitsTableRow.Statement; decide

theorem FitsTableRow.movAS6 (cc : CmdBits) : FitsTableRow.Statement (.movAS6 cc) := by
  revert cc; unfold FitsTableRow.Statement; decide

theorem FitsTableRow.movBS6 (cc : CmdBits) : FitsTableRow.Statement (.movBS6 cc) := by
  revert cc; unfold FitsTableRow.Statement; decide

theorem FitsTableRow.movCS6 (cc : CmdBits) : FitsTableRow.Statement (.movCS6 cc) := by
  revert cc; unfold FitsTableRow.Statement; decide

theorem FitsTableRow.movR1S6 (cc : CmdBits) : FitsTableRow.Statement (.movR1S6 cc) := by
  revert cc; unfold FitsTableRow.Statement; decide

theorem FitsTableRow.movR2S6 (cc : CmdBits) : FitsTableRow.Statement (.movR2S6 cc) := by
  revert cc; unfold FitsTableRow.Statement; decide

theorem FitsTableRow.movOutS6 (cc : CmdBits) : FitsTableRow.Statement (.movOutS6 cc) := by
  revert cc; unfold FitsTableRow.Statement; decide

theorem FitsTableRow.movD7S6 (cc : CmdBits) : FitsTableRow.Statement (.movD7S6 cc) := by
  revert cc; unfold FitsTableRow.Statement; decide

theorem FitsTableRow.movRiS7 (cc : CmdBits) : FitsTableRow.Statement (.movRiS7 cc) := by
  revert cc; unfold FitsTableRow.Statement; decide

theorem FitsTableRow.movAS7 (cc : CmdBits) : FitsTableRow.Statement (.movAS7 cc) := by
  revert cc; unfold FitsTableRow.Statement; decide

theorem FitsTableRow.movBS7 (cc : CmdBits) : FitsTableRow.Statement (.movBS7 cc) := by
  revert cc; unfold FitsTableRow.Statement; decide

theorem FitsTableRow.movCS7 (cc : CmdBits) : FitsTableRow.Statement (.movCS7 cc) := by
  revert cc; unfold FitsTableRow.Statement; decide

theorem FitsTableRow.movR1S7 (cc : CmdBits) : FitsTableRow.Statement (.movR1S7 cc) := by
  revert cc; unfold FitsTableRow.Statement; decide

theorem FitsTableRow.movR2S7 (cc : CmdBits) : FitsTableRow.Statement (.movR2S7 cc) := by
  revert cc; unfold FitsTableRow.Statement; decide

theorem FitsTableRow.movOutS7 (cc : CmdBits) : FitsTableRow.Statement (.movOutS7 cc) := by
  revert cc; unfold FitsTableRow.Statement; decide

theorem FitsTableRow.movD7S7 (cc : CmdBits) : FitsTableRow.Statement (.movD7S7 cc) := by
  revert cc; unfold FitsTableRow.Statement; decide

theorem FitsTableRow.alu0PassThroughZero : FitsTableRow.Statement .alu0PassThroughZero := by
  unfold FitsTableRow.Statement; decide

theorem FitsTableRow.alu1Divide : FitsTableRow.Statement .alu1Divide := by
  unfold FitsTableRow.Statement; decide

theorem FitsTableRow.alu2MultiplyMinusOne : FitsTableRow.Statement .alu2MultiplyMinusOne := by
  unfold FitsTableRow.Statement; decide

theorem FitsTableRow.alu3Add : FitsTableRow.Statement .alu3Add := by
  unfold FitsTableRow.Statement; decide

theorem FitsTableRow.alu4DifferenceOfSquares : FitsTableRow.Statement .alu4DifferenceOfSquares := by
  unfold FitsTableRow.Statement; decide

theorem FitsTableRow.alu5Double : FitsTableRow.Statement .alu5Double := by
  unfold FitsTableRow.Statement; decide

theorem FitsTableRow.alu6Average : FitsTableRow.Statement .alu6Average := by
  unfold FitsTableRow.Statement; decide

theorem FitsTableRow.alu7Multiply : FitsTableRow.Statement .alu7Multiply := by
  unfold FitsTableRow.Statement; decide

theorem FitsTableRow.alu8Modulo : FitsTableRow.Statement .alu8Modulo := by
  unfold FitsTableRow.Statement; decide

theorem FitsTableRow.alu9Halve : FitsTableRow.Statement .alu9Halve := by
  unfold FitsTableRow.Statement; decide

theorem FitsTableRow.alu10ProductMinusSum : FitsTableRow.Statement .alu10ProductMinusSum := by
  unfold FitsTableRow.Statement; decide

theorem FitsTableRow.alu11Subtract : FitsTableRow.Statement .alu11Subtract := by
  unfold FitsTableRow.Statement; decide

theorem FitsTableRow.alu12SquaredDifference : FitsTableRow.Statement .alu12SquaredDifference := by
  unfold FitsTableRow.Statement; decide

theorem FitsTableRow.alu13Identity : FitsTableRow.Statement .alu13Identity := by
  unfold FitsTableRow.Statement; decide

theorem FitsTableRow.alu14Square : FitsTableRow.Statement .alu14Square := by
  unfold FitsTableRow.Statement; decide

theorem FitsTableRow.alu15Decrement : FitsTableRow.Statement .alu15Decrement := by
  unfold FitsTableRow.Statement; decide

theorem FitsTableRow.alu16NotR1 : FitsTableRow.Statement .alu16NotR1 := by
  unfold FitsTableRow.Statement; decide

theorem FitsTableRow.alu17Nand : FitsTableRow.Statement .alu17Nand := by
  unfold FitsTableRow.Statement; decide

theorem FitsTableRow.alu18R2ImpliesR1 : FitsTableRow.Statement .alu18R2ImpliesR1 := by
  unfold FitsTableRow.Statement; decide

theorem FitsTableRow.alu19ConstantOne : FitsTableRow.Statement .alu19ConstantOne := by
  unfold FitsTableRow.Statement; decide

theorem FitsTableRow.alu20Xor : FitsTableRow.Statement .alu20Xor := by
  unfold FitsTableRow.Statement; decide

theorem FitsTableRow.alu21Xnor : FitsTableRow.Statement .alu21Xnor := by
  unfold FitsTableRow.Statement; decide

theorem FitsTableRow.alu22Implication : FitsTableRow.Statement .alu22Implication := by
  unfold FitsTableRow.Statement; decide

theorem FitsTableRow.alu23Or : FitsTableRow.Statement .alu23Or := by
  unfold FitsTableRow.Statement; decide

theorem FitsTableRow.alu24NorOfImplication : FitsTableRow.Statement .alu24NorOfImplication := by
  unfold FitsTableRow.Statement; decide

theorem FitsTableRow.alu25NandOfImplication : FitsTableRow.Statement .alu25NandOfImplication := by
  unfold FitsTableRow.Statement; decide

theorem FitsTableRow.alu26And : FitsTableRow.Statement .alu26And := by
  unfold FitsTableRow.Statement; decide

theorem FitsTableRow.alu27XnorAlt : FitsTableRow.Statement .alu27XnorAlt := by
  unfold FitsTableRow.Statement; decide

theorem FitsTableRow.alu28NotR2 : FitsTableRow.Statement .alu28NotR2 := by
  unfold FitsTableRow.Statement; decide

theorem FitsTableRow.alu29Nor : FitsTableRow.Statement .alu29Nor := by
  unfold FitsTableRow.Statement; decide

theorem FitsTableRow.alu30Xnor : FitsTableRow.Statement .alu30Xnor := by
  unfold FitsTableRow.Statement; decide

theorem FitsTableRow.alu31XnorAlt : FitsTableRow.Statement .alu31XnorAlt := by
  unfold FitsTableRow.Statement; decide

end Sys2Proof.Laws
end

