-- ==== Sys2Proof/Tests/Slice0.lean ====
section
/-! SUPPORT. The model's own tests. Every expected value is one the spec's vectors give (95_test_vectors.md), or is worked out by
hand from a rule it names; the witnesses show states that meet a statement's hypotheses. -/

namespace Sys2Proof.Tests

open Sys2Proof.Machine

/-- The outcome is this next state. -/
def nextIs (r : Result) (t : State) : Bool :=
  match r with
  | .next s => decide (s = t)
  | .fault _ => false
  | .refused _ => false

/-- The start state of the vectors of L2.5: every row runs from it. -/
def start : State :=
  { State.reset with ri := 2, rc := 1, a := 13, b := 6, c := 9, r1 := 3, r2 := 5, cmd := 3, inputs := [10] }

/-- The start state of the vectors of L2.7, with CMD and the word. -/
def beforeFault (cmd : CmdWord) (w : Byte) : State :=
  { State.reset with ri := 3, rc := 2, r1 := 9, aluout := 4, cmd := cmd }.placeMicroword w

/-- The reset state at an address, with A = 7 (L2.6) and the word there. -/
def at7 (ri : SlotWord) (rc : CycleWord) (w : Byte) : State :=
  { State.reset with ri := ri, rc := rc, a := 7 }.placeMicroword w

/-- The step from a state is the state with these changes. -/
def stepGives (s : State) (change : State → State) : Bool :=
  nextIs (step s) (change s)

/-- An ALU command on operand pairs: each gives its result in ALUOUT and changes nothing else. -/
def aluGives (i : Instr) (rows : List (Nibble × Nibble × Nibble)) : Bool :=
  rows.all fun (r1, r2, v) =>
    nextIs (exec i { start with r1 := r1, r2 := r2 }) { start with r1 := r1, r2 := r2, aluout := v }

/-! ## Well-formedness and decoding -/

theorem test_wellFormed_refuses_alu_command_as_microword : Instr.alu3Add.wellFormedAs .microword = false := by decide

theorem test_wellFormed_refuses_microword_as_alu_command : (Instr.movRiRi 0).wellFormedAs .aluCommand = false :=
  by decide

/-- "No partial words accepted" (R90). -/
theorem test_decode_rejects_no_word : decode [] = .error .partialWord := by decide

/-- The words of L2.5 with source RI, written out from the spec's encodings (R96). -/
theorem test_decode_source_ri :
    decodeMicroword 0b00000001#8 = .movRiRi 0b01#2 ∧
    decodeMicroword 0b00000101#8 = .movARi 0b01#2 ∧
    decodeMicroword 0b00001001#8 = .movBRi 0b01#2 ∧
    decodeMicroword 0b00001101#8 = .movCRi 0b01#2 ∧
    decodeMicroword 0b00010001#8 = .movR1Ri 0b01#2 ∧
    decodeMicroword 0b00010101#8 = .movR2Ri 0b01#2 ∧
    decodeMicroword 0b00011001#8 = .movOutRi 0b01#2 ∧
    decodeMicroword 0b00011101#8 = .movD7Ri 0b01#2 := by decide

/-- The words of L2.5 with source A, written out from the spec's encodings (R96). -/
theorem test_decode_source_a :
    decodeMicroword 0b00100001#8 = .movRiA 0b01#2 ∧
    decodeMicroword 0b00100101#8 = .movAA 0b01#2 ∧
    decodeMicroword 0b00101001#8 = .movBA 0b01#2 ∧
    decodeMicroword 0b00101101#8 = .movCA 0b01#2 ∧
    decodeMicroword 0b00110001#8 = .movR1A 0b01#2 ∧
    decodeMicroword 0b00110101#8 = .movR2A 0b01#2 ∧
    decodeMicroword 0b00111001#8 = .movOutA 0b01#2 ∧
    decodeMicroword 0b00111101#8 = .movD7A 0b01#2 := by decide

/-- The words of L2.5 with source B, written out from the spec's encodings (R96). -/
theorem test_decode_source_b :
    decodeMicroword 0b01000001#8 = .movRiB 0b01#2 ∧
    decodeMicroword 0b01000101#8 = .movAB 0b01#2 ∧
    decodeMicroword 0b01001001#8 = .movBB 0b01#2 ∧
    decodeMicroword 0b01001101#8 = .movCB 0b01#2 ∧
    decodeMicroword 0b01010001#8 = .movR1B 0b01#2 ∧
    decodeMicroword 0b01010101#8 = .movR2B 0b01#2 ∧
    decodeMicroword 0b01011001#8 = .movOutB 0b01#2 ∧
    decodeMicroword 0b01011101#8 = .movD7B 0b01#2 := by decide

/-- The words of L2.5 with source C, written out from the spec's encodings (R96). -/
theorem test_decode_source_c :
    decodeMicroword 0b01100001#8 = .movRiC 0b01#2 ∧
    decodeMicroword 0b01100101#8 = .movAC 0b01#2 ∧
    decodeMicroword 0b01101001#8 = .movBC 0b01#2 ∧
    decodeMicroword 0b01101101#8 = .movCC 0b01#2 ∧
    decodeMicroword 0b01110001#8 = .movR1C 0b01#2 ∧
    decodeMicroword 0b01110101#8 = .movR2C 0b01#2 ∧
    decodeMicroword 0b01111001#8 = .movOutC 0b01#2 ∧
    decodeMicroword 0b01111101#8 = .movD7C 0b01#2 := by decide

/-- The words of L2.5 with source ALU, written out from the spec's encodings (R96). -/
theorem test_decode_source_alu :
    decodeMicroword 0b10000001#8 = .movRiAlu 0b01#2 ∧
    decodeMicroword 0b10000101#8 = .movAAlu 0b01#2 ∧
    decodeMicroword 0b10001001#8 = .movBAlu 0b01#2 ∧
    decodeMicroword 0b10001101#8 = .movCAlu 0b01#2 ∧
    decodeMicroword 0b10010001#8 = .movR1Alu 0b01#2 ∧
    decodeMicroword 0b10010101#8 = .movR2Alu 0b01#2 ∧
    decodeMicroword 0b10011001#8 = .movOutAlu 0b01#2 ∧
    decodeMicroword 0b10011101#8 = .movD7Alu 0b01#2 := by decide

/-- The words of L2.5 with source IN, written out from the spec's encodings (R96). -/
theorem test_decode_source_input :
    decodeMicroword 0b10100001#8 = .movRiIn 0b01#2 ∧
    decodeMicroword 0b10100101#8 = .movAIn 0b01#2 ∧
    decodeMicroword 0b10101001#8 = .movBIn 0b01#2 ∧
    decodeMicroword 0b10101101#8 = .movCIn 0b01#2 ∧
    decodeMicroword 0b10110001#8 = .movR1In 0b01#2 ∧
    decodeMicroword 0b10110101#8 = .movR2In 0b01#2 ∧
    decodeMicroword 0b10111001#8 = .movOutIn 0b01#2 ∧
    decodeMicroword 0b10111101#8 = .movD7In 0b01#2 := by decide

/-- The words of L2.5 with source S6, written out from the spec's encodings (R96). -/
theorem test_decode_source_s6 :
    decodeMicroword 0b11000001#8 = .movRiS6 0b01#2 ∧
    decodeMicroword 0b11000101#8 = .movAS6 0b01#2 ∧
    decodeMicroword 0b11001001#8 = .movBS6 0b01#2 ∧
    decodeMicroword 0b11001101#8 = .movCS6 0b01#2 ∧
    decodeMicroword 0b11010001#8 = .movR1S6 0b01#2 ∧
    decodeMicroword 0b11010101#8 = .movR2S6 0b01#2 ∧
    decodeMicroword 0b11011001#8 = .movOutS6 0b01#2 ∧
    decodeMicroword 0b11011101#8 = .movD7S6 0b01#2 := by decide

/-- The words of L2.5 with source S7, written out from the spec's encodings (R96). -/
theorem test_decode_source_s7 :
    decodeMicroword 0b11100001#8 = .movRiS7 0b01#2 ∧
    decodeMicroword 0b11100101#8 = .movAS7 0b01#2 ∧
    decodeMicroword 0b11101001#8 = .movBS7 0b01#2 ∧
    decodeMicroword 0b11101101#8 = .movCS7 0b01#2 ∧
    decodeMicroword 0b11110001#8 = .movR1S7 0b01#2 ∧
    decodeMicroword 0b11110101#8 = .movR2S7 0b01#2 ∧
    decodeMicroword 0b11111001#8 = .movOutS7 0b01#2 ∧
    decodeMicroword 0b11111101#8 = .movD7S7 0b01#2 := by decide

/-- The arithmetic values of CMD (R98). -/
theorem test_decode_commands_0 :
    decodeAluCommand 0b00000#5 = .alu0PassThroughZero ∧
    decodeAluCommand 0b00001#5 = .alu1Divide ∧
    decodeAluCommand 0b00010#5 = .alu2MultiplyMinusOne ∧
    decodeAluCommand 0b00011#5 = .alu3Add ∧
    decodeAluCommand 0b00100#5 = .alu4DifferenceOfSquares ∧
    decodeAluCommand 0b00101#5 = .alu5Double ∧
    decodeAluCommand 0b00110#5 = .alu6Average ∧
    decodeAluCommand 0b00111#5 = .alu7Multiply ∧
    decodeAluCommand 0b01000#5 = .alu8Modulo ∧
    decodeAluCommand 0b01001#5 = .alu9Halve ∧
    decodeAluCommand 0b01010#5 = .alu10ProductMinusSum ∧
    decodeAluCommand 0b01011#5 = .alu11Subtract ∧
    decodeAluCommand 0b01100#5 = .alu12SquaredDifference ∧
    decodeAluCommand 0b01101#5 = .alu13Identity ∧
    decodeAluCommand 0b01110#5 = .alu14Square ∧
    decodeAluCommand 0b01111#5 = .alu15Decrement := by decide

/-- The bitwise values of CMD (R98). -/
theorem test_decode_commands_16 :
    decodeAluCommand 0b10000#5 = .alu16NotR1 ∧
    decodeAluCommand 0b10001#5 = .alu17Nand ∧
    decodeAluCommand 0b10010#5 = .alu18R2ImpliesR1 ∧
    decodeAluCommand 0b10011#5 = .alu19ConstantOne ∧
    decodeAluCommand 0b10100#5 = .alu20Xor ∧
    decodeAluCommand 0b10101#5 = .alu21Xnor ∧
    decodeAluCommand 0b10110#5 = .alu22Implication ∧
    decodeAluCommand 0b10111#5 = .alu23Or ∧
    decodeAluCommand 0b11000#5 = .alu24NorOfImplication ∧
    decodeAluCommand 0b11001#5 = .alu25NandOfImplication ∧
    decodeAluCommand 0b11010#5 = .alu26And ∧
    decodeAluCommand 0b11011#5 = .alu27XnorAlt ∧
    decodeAluCommand 0b11100#5 = .alu28NotR2 ∧
    decodeAluCommand 0b11101#5 = .alu29Nor ∧
    decodeAluCommand 0b11110#5 = .alu30Xnor ∧
    decodeAluCommand 0b11111#5 = .alu31XnorAlt := by decide

/-- The decoder on a table row's bits: fewer than 8 bits are an ALU command, 8 bits a microword (log entry 8). -/
theorem test_decodeTableWord :
    decodeTableWord 5 0b00111 = some .alu7Multiply ∧ decodeTableWord 8 0b01011000 = some (.movOutB 0) := by decide

/-- A step runs a placed microword, and a placed ALU command through MOV D7, ALU. -/
theorem test_withFetchWord :
    nextIs (step (State.reset.withFetchWord 8 0b00100100)) { State.reset.withFetchWord 8 0b00100100 with rc := 1 } = true ∧
    nextIs (step ((State.reset.withFetchWord 5 0b01111))) { State.reset.withFetchWord 5 0b01111 with rc := 1, aluout := 15 } = true := by
  decide

/-! ## One step of every microword operation (L2.5, table W) -/

theorem test_movRiRi :
    stepGives (start.placeMicroword 0b00000001#8) (fun s => { s with rc := 2, cmd := 13 }) = true :=
  by decide

theorem test_movARi : stepGives (start.placeMicroword 0b00000101#8) (fun s => { s with rc := 2, a := 2 }) = true :=
  by decide

theorem test_movBRi : stepGives (start.placeMicroword 0b00001001#8) (fun s => { s with rc := 2, b := 2 }) = true :=
  by decide

theorem test_movCRi : stepGives (start.placeMicroword 0b00001101#8) (fun s => { s with rc := 2, c := 2 }) = true :=
  by decide

theorem test_movR1Ri :
    stepGives (start.placeMicroword 0b00010001#8) (fun s => { s with rc := 2, r1 := 2, cmd := 13 }) = true :=
  by decide

theorem test_movR2Ri :
    stepGives (start.placeMicroword 0b00010101#8) (fun s => { s with rc := 2, r2 := 2, cmd := 13 }) = true :=
  by decide

theorem test_movOutRi :
    stepGives (start.placeMicroword 0b00011001#8) (fun s => { s with rc := 2, output := [⟨0, 3, 2⟩] }) = true :=
  by decide

theorem test_movD7Ri : stepGives (start.placeMicroword 0b00011101#8) (fun s => { s with rc := 2 }) = true := by decide

theorem test_movRiA :
    stepGives (start.placeMicroword 0b00100001#8) (fun s => { s with ri := 5, rc := 2, cmd := 13 }) = true :=
  by decide

theorem test_movAA : stepGives (start.placeMicroword 0b00100101#8) (fun s => { s with rc := 2 }) = true := by decide

theorem test_movBA : stepGives (start.placeMicroword 0b00101001#8) (fun s => { s with rc := 2, b := 13 }) = true :=
  by decide

theorem test_movCA : stepGives (start.placeMicroword 0b00101101#8) (fun s => { s with rc := 2, c := 13 }) = true :=
  by decide

theorem test_movR1A :
    stepGives (start.placeMicroword 0b00110001#8) (fun s => { s with rc := 2, r1 := 13, cmd := 13 }) = true :=
  by decide

theorem test_movR2A :
    stepGives (start.placeMicroword 0b00110101#8) (fun s => { s with rc := 2, r2 := 13, cmd := 13 }) = true :=
  by decide

theorem test_movOutA :
    stepGives (start.placeMicroword 0b00111001#8) (fun s => { s with rc := 2, output := [⟨1, 4, 13⟩] }) = true :=
  by decide

theorem test_movD7A : stepGives (start.placeMicroword 0b00111101#8) (fun s => { s with rc := 2 }) = true := by decide

theorem test_movRiB :
    stepGives (start.placeMicroword 0b01000001#8) (fun s => { s with ri := 6, rc := 2, cmd := 13 }) = true :=
  by decide

theorem test_movAB : stepGives (start.placeMicroword 0b01000101#8) (fun s => { s with rc := 2, a := 6 }) = true :=
  by decide

theorem test_movBB : stepGives (start.placeMicroword 0b01001001#8) (fun s => { s with rc := 2 }) = true := by decide

theorem test_movCB : stepGives (start.placeMicroword 0b01001101#8) (fun s => { s with rc := 2, c := 6 }) = true :=
  by decide

theorem test_movR1B :
    stepGives (start.placeMicroword 0b01010001#8) (fun s => { s with rc := 2, r1 := 6, cmd := 13 }) = true :=
  by decide

theorem test_movR2B :
    stepGives (start.placeMicroword 0b01010101#8) (fun s => { s with rc := 2, r2 := 6, cmd := 13 }) = true :=
  by decide

theorem test_movOutB :
    stepGives (start.placeMicroword 0b01011001#8) (fun s => { s with rc := 2, output := [⟨2, 4, 6⟩] }) = true :=
  by decide

theorem test_movD7B : stepGives (start.placeMicroword 0b01011101#8) (fun s => { s with rc := 2 }) = true := by decide

theorem test_movRiC :
    stepGives (start.placeMicroword 0b01100001#8) (fun s => { s with ri := 1, rc := 2, cmd := 13 }) = true :=
  by decide

theorem test_movAC : stepGives (start.placeMicroword 0b01100101#8) (fun s => { s with rc := 2, a := 9 }) = true :=
  by decide

theorem test_movBC : stepGives (start.placeMicroword 0b01101001#8) (fun s => { s with rc := 2, b := 9 }) = true :=
  by decide

theorem test_movCC : stepGives (start.placeMicroword 0b01101101#8) (fun s => { s with rc := 2 }) = true := by decide

theorem test_movR1C :
    stepGives (start.placeMicroword 0b01110001#8) (fun s => { s with rc := 2, r1 := 9, cmd := 13 }) = true :=
  by decide

theorem test_movR2C :
    stepGives (start.placeMicroword 0b01110101#8) (fun s => { s with rc := 2, r2 := 9, cmd := 13 }) = true :=
  by decide

theorem test_movOutC :
    stepGives (start.placeMicroword 0b01111001#8) (fun s => { s with rc := 2, output := [⟨3, 4, 9⟩] }) = true :=
  by decide

theorem test_movD7C : stepGives (start.placeMicroword 0b01111101#8) (fun s => { s with rc := 2 }) = true := by decide

theorem test_movRiAlu :
    stepGives (start.placeMicroword 0b10000001#8) (fun s => { s with ri := 0, rc := 2, cmd := 13, aluout := 8 }) = true :=
  by decide

theorem test_movAAlu :
    stepGives (start.placeMicroword 0b10000101#8) (fun s => { s with rc := 2, a := 8, aluout := 8 }) = true :=
  by decide

theorem test_movBAlu :
    stepGives (start.placeMicroword 0b10001001#8) (fun s => { s with rc := 2, b := 8, aluout := 8 }) = true :=
  by decide

theorem test_movCAlu :
    stepGives (start.placeMicroword 0b10001101#8) (fun s => { s with rc := 2, c := 8, aluout := 8 }) = true :=
  by decide

theorem test_movR1Alu :
    stepGives (start.placeMicroword 0b10010001#8) (fun s => { s with rc := 2, r1 := 8, cmd := 13, aluout := 8 }) = true :=
  by decide

theorem test_movR2Alu :
    stepGives (start.placeMicroword 0b10010101#8) (fun s => { s with rc := 2, r2 := 8, cmd := 13, aluout := 8 }) = true :=
  by decide

theorem test_movOutAlu :
    stepGives (start.placeMicroword 0b10011001#8) (fun s => { s with rc := 2, aluout := 8, output := [⟨4, 4, 8⟩] }) = true :=
  by decide

theorem test_movD7Alu :
    stepGives (start.placeMicroword 0b10011101#8) (fun s => { s with rc := 2, aluout := 8 }) = true :=
  by decide

theorem test_movRiIn :
    stepGives (start.placeMicroword 0b10100001#8) (fun s => { s with rc := 2, cmd := 13, inbuf := 10, inputs := [], inputsTaken := 1 }) = true :=
  by decide

theorem test_movAIn :
    stepGives (start.placeMicroword 0b10100101#8) (fun s => { s with rc := 2, a := 10, inbuf := 10, inputs := [], inputsTaken := 1 }) = true :=
  by decide

theorem test_movBIn :
    stepGives (start.placeMicroword 0b10101001#8) (fun s => { s with rc := 2, b := 10, inbuf := 10, inputs := [], inputsTaken := 1 }) = true :=
  by decide

theorem test_movCIn :
    stepGives (start.placeMicroword 0b10101101#8) (fun s => { s with rc := 2, c := 10, inbuf := 10, inputs := [], inputsTaken := 1 }) = true :=
  by decide

theorem test_movR1In :
    stepGives (start.placeMicroword 0b10110001#8) (fun s => { s with rc := 2, r1 := 10, cmd := 13, inbuf := 10, inputs := [], inputsTaken := 1 }) = true :=
  by decide

theorem test_movR2In :
    stepGives (start.placeMicroword 0b10110101#8) (fun s => { s with rc := 2, r2 := 10, cmd := 13, inbuf := 10, inputs := [], inputsTaken := 1 }) = true :=
  by decide

theorem test_movOutIn :
    stepGives (start.placeMicroword 0b10111001#8) (fun s => { s with rc := 2, inbuf := 10, output := [⟨5, 4, 10⟩], inputs := [], inputsTaken := 1 }) = true :=
  by decide

theorem test_movD7In :
    stepGives (start.placeMicroword 0b10111101#8) (fun s => { s with rc := 2, inbuf := 10, inputs := [], inputsTaken := 1 }) = true :=
  by decide

theorem test_movRiS6 :
    stepGives (start.placeMicroword 0b11000001#8) (fun s => { s with rc := 2, cmd := 13 }) = true :=
  by decide

theorem test_movAS6 : stepGives (start.placeMicroword 0b11000101#8) (fun s => { s with rc := 2 }) = true := by decide

theorem test_movBS6 : stepGives (start.placeMicroword 0b11001001#8) (fun s => { s with rc := 2 }) = true := by decide

theorem test_movCS6 : stepGives (start.placeMicroword 0b11001101#8) (fun s => { s with rc := 2 }) = true := by decide

theorem test_movR1S6 :
    stepGives (start.placeMicroword 0b11010001#8) (fun s => { s with rc := 2, cmd := 13 }) = true :=
  by decide

theorem test_movR2S6 :
    stepGives (start.placeMicroword 0b11010101#8) (fun s => { s with rc := 2, cmd := 13 }) = true :=
  by decide

theorem test_movOutS6 : stepGives (start.placeMicroword 0b11011001#8) (fun s => { s with rc := 2 }) = true :=
  by decide

theorem test_movD7S6 : stepGives (start.placeMicroword 0b11011101#8) (fun s => { s with rc := 2 }) = true := by decide

theorem test_movRiS7 :
    stepGives (start.placeMicroword 0b11100001#8) (fun s => { s with rc := 2, cmd := 13 }) = true :=
  by decide

theorem test_movAS7 : stepGives (start.placeMicroword 0b11100101#8) (fun s => { s with rc := 2 }) = true := by decide

theorem test_movBS7 : stepGives (start.placeMicroword 0b11101001#8) (fun s => { s with rc := 2 }) = true := by decide

theorem test_movCS7 : stepGives (start.placeMicroword 0b11101101#8) (fun s => { s with rc := 2 }) = true := by decide

theorem test_movR1S7 :
    stepGives (start.placeMicroword 0b11110001#8) (fun s => { s with rc := 2, cmd := 13 }) = true :=
  by decide

theorem test_movR2S7 :
    stepGives (start.placeMicroword 0b11110101#8) (fun s => { s with rc := 2, cmd := 13 }) = true :=
  by decide

theorem test_movOutS7 : stepGives (start.placeMicroword 0b11111001#8) (fun s => { s with rc := 2 }) = true :=
  by decide

theorem test_movD7S7 : stepGives (start.placeMicroword 0b11111101#8) (fun s => { s with rc := 2 }) = true := by decide

/-! ## ALU commands on the operand pairs of L2.2 and L2.3 -/

theorem test_alu0PassThroughZero :
    aluGives .alu0PassThroughZero [(3, 5, 0), (0, 1, 0), (15, 15, 0), (2, 7, 0), (9, 4, 0), (0, 0, 0)] = true :=
  by decide

theorem test_alu1Divide : aluGives .alu1Divide [(3, 5, 0), (0, 1, 0), (15, 15, 1), (2, 7, 0), (9, 4, 2)] = true :=
  by decide

theorem test_alu1Divide_by_zero :
    nextIs (exec .alu1Divide { start with r1 := 0, r2 := 0 }) { start with r1 := 0, r2 := 0, fault := some ⟨2, 1, 3⟩ } = true :=
  by decide

theorem test_alu2MultiplyMinusOne :
    aluGives .alu2MultiplyMinusOne [(3, 5, 14), (0, 1, 15), (15, 15, 0), (2, 7, 13), (9, 4, 3), (0, 0, 15)] = true :=
  by decide

theorem test_alu3Add :
    aluGives .alu3Add [(3, 5, 8), (0, 1, 1), (15, 15, 14), (2, 7, 9), (9, 4, 13), (0, 0, 0)] = true :=
  by decide

theorem test_alu4DifferenceOfSquares :
    aluGives .alu4DifferenceOfSquares [(3, 5, 0), (0, 1, 15), (15, 15, 0), (2, 7, 3), (9, 4, 1), (0, 0, 0)] = true :=
  by decide

theorem test_alu5Double :
    aluGives .alu5Double [(3, 5, 6), (0, 1, 0), (15, 15, 14), (2, 7, 4), (9, 4, 2), (0, 0, 0)] = true :=
  by decide

theorem test_alu6Average :
    aluGives .alu6Average [(3, 5, 4), (0, 1, 0), (15, 15, 15), (2, 7, 4), (9, 4, 6), (0, 0, 0)] = true :=
  by decide

theorem test_alu7Multiply :
    aluGives .alu7Multiply [(3, 5, 15), (0, 1, 0), (15, 15, 1), (2, 7, 14), (9, 4, 4), (0, 0, 0)] = true :=
  by decide

theorem test_alu8Modulo : aluGives .alu8Modulo [(3, 5, 3), (0, 1, 0), (15, 15, 0), (2, 7, 2), (9, 4, 1)] = true :=
  by decide

theorem test_alu8Modulo_by_zero :
    nextIs (exec .alu8Modulo { start with r1 := 0, r2 := 0 }) { start with r1 := 0, r2 := 0, fault := some ⟨2, 1, 3⟩ } = true :=
  by decide

theorem test_alu9Halve :
    aluGives .alu9Halve [(3, 5, 1), (0, 1, 0), (15, 15, 7), (2, 7, 1), (9, 4, 4), (0, 0, 0)] = true :=
  by decide

theorem test_alu10ProductMinusSum :
    aluGives .alu10ProductMinusSum [(3, 5, 7), (0, 1, 15), (15, 15, 3), (2, 7, 5), (9, 4, 7), (0, 0, 0)] = true :=
  by decide

theorem test_alu11Subtract :
    aluGives .alu11Subtract [(3, 5, 14), (0, 1, 15), (15, 15, 0), (2, 7, 11), (9, 4, 5), (0, 0, 0)] = true :=
  by decide

theorem test_alu12SquaredDifference :
    aluGives .alu12SquaredDifference [(3, 5, 4), (0, 1, 1), (15, 15, 0), (2, 7, 9), (9, 4, 9), (0, 0, 0)] = true :=
  by decide

theorem test_alu13Identity :
    aluGives .alu13Identity [(3, 5, 3), (0, 1, 0), (15, 15, 15), (2, 7, 2), (9, 4, 9), (0, 0, 0)] = true :=
  by decide

theorem test_alu14Square :
    aluGives .alu14Square [(3, 5, 9), (0, 1, 0), (15, 15, 1), (2, 7, 4), (9, 4, 1), (0, 0, 0)] = true :=
  by decide

theorem test_alu15Decrement :
    aluGives .alu15Decrement [(3, 5, 2), (0, 1, 15), (15, 15, 14), (2, 7, 1), (9, 4, 8), (0, 0, 15)] = true :=
  by decide

theorem test_alu16NotR1 : aluGives .alu16NotR1
    [(0b1100, 0b1010, 0b0011), (0b1010, 0b0000, 0b0101), (0b0101, 0b0011, 0b1010), (0b1111, 0b0000, 0b0000), (0b0000, 0b1111, 0b1111)] = true :=
  by decide

theorem test_alu17Nand : aluGives .alu17Nand
    [(0b1100, 0b1010, 0b0111), (0b1010, 0b0000, 0b1111), (0b0101, 0b0011, 0b1110), (0b1111, 0b0000, 0b1111), (0b0000, 0b1111, 0b1111)] = true :=
  by decide

theorem test_alu18R2ImpliesR1 : aluGives .alu18R2ImpliesR1
    [(0b1100, 0b1010, 0b1101), (0b1010, 0b0000, 0b1111), (0b0101, 0b0011, 0b1101), (0b1111, 0b0000, 0b1111), (0b0000, 0b1111, 0b0000)] = true :=
  by decide

theorem test_alu19ConstantOne : aluGives .alu19ConstantOne
    [(0b1100, 0b1010, 0b1111), (0b1010, 0b0000, 0b1111), (0b0101, 0b0011, 0b1111), (0b1111, 0b0000, 0b1111), (0b0000, 0b1111, 0b1111)] = true :=
  by decide

theorem test_alu20Xor : aluGives .alu20Xor
    [(0b1100, 0b1010, 0b0110), (0b1010, 0b0000, 0b1010), (0b0101, 0b0011, 0b0110), (0b1111, 0b0000, 0b1111), (0b0000, 0b1111, 0b1111)] = true :=
  by decide

theorem test_alu21Xnor : aluGives .alu21Xnor
    [(0b1100, 0b1010, 0b1001), (0b1010, 0b0000, 0b0101), (0b0101, 0b0011, 0b1001), (0b1111, 0b0000, 0b0000), (0b0000, 0b1111, 0b0000)] = true :=
  by decide

theorem test_alu22Implication : aluGives .alu22Implication
    [(0b1100, 0b1010, 0b1011), (0b1010, 0b0000, 0b0101), (0b0101, 0b0011, 0b1011), (0b1111, 0b0000, 0b0000), (0b0000, 0b1111, 0b1111)] = true :=
  by decide

theorem test_alu23Or : aluGives .alu23Or
    [(0b1100, 0b1010, 0b1110), (0b1010, 0b0000, 0b1010), (0b0101, 0b0011, 0b0111), (0b1111, 0b0000, 0b1111), (0b0000, 0b1111, 0b1111)] = true :=
  by decide

theorem test_alu24NorOfImplication : aluGives .alu24NorOfImplication
    [(0b1100, 0b1010, 0b0100), (0b1010, 0b0000, 0b1010), (0b0101, 0b0011, 0b0100), (0b1111, 0b0000, 0b1111), (0b0000, 0b1111, 0b0000)] = true :=
  by decide

theorem test_alu25NandOfImplication : aluGives .alu25NandOfImplication
    [(0b1100, 0b1010, 0b0010), (0b1010, 0b0000, 0b0000), (0b0101, 0b0011, 0b0010), (0b1111, 0b0000, 0b0000), (0b0000, 0b1111, 0b1111)] = true :=
  by decide

theorem test_alu26And : aluGives .alu26And
    [(0b1100, 0b1010, 0b1000), (0b1010, 0b0000, 0b0000), (0b0101, 0b0011, 0b0001), (0b1111, 0b0000, 0b0000), (0b0000, 0b1111, 0b0000)] = true :=
  by decide

theorem test_alu27XnorAlt : aluGives .alu27XnorAlt
    [(0b1100, 0b1010, 0b1001), (0b1010, 0b0000, 0b0101), (0b0101, 0b0011, 0b1001), (0b1111, 0b0000, 0b0000), (0b0000, 0b1111, 0b0000)] = true :=
  by decide

theorem test_alu28NotR2 : aluGives .alu28NotR2
    [(0b1100, 0b1010, 0b0101), (0b1010, 0b0000, 0b1111), (0b0101, 0b0011, 0b1100), (0b1111, 0b0000, 0b1111), (0b0000, 0b1111, 0b0000)] = true :=
  by decide

theorem test_alu29Nor : aluGives .alu29Nor
    [(0b1100, 0b1010, 0b0001), (0b1010, 0b0000, 0b0101), (0b0101, 0b0011, 0b1000), (0b1111, 0b0000, 0b0000), (0b0000, 0b1111, 0b0000)] = true :=
  by decide

theorem test_alu30Xnor : aluGives .alu30Xnor
    [(0b1100, 0b1010, 0b1001), (0b1010, 0b0000, 0b0101), (0b0101, 0b0011, 0b1001), (0b1111, 0b0000, 0b0000), (0b0000, 0b1111, 0b0000)] = true :=
  by decide

theorem test_alu31XnorAlt : aluGives .alu31XnorAlt
    [(0b1100, 0b1010, 0b1001), (0b1010, 0b0000, 0b0101), (0b0101, 0b0011, 0b1001), (0b1111, 0b0000, 0b0000), (0b0000, 0b1111, 0b0000)] = true :=
  by decide

/-- Average is not truncated before it is halved: (15 + 14) / 2 = 14 (L2.2). -/
theorem test_alu6Average_keeps_the_carry : aluGives .alu6Average [(15, 14, 14)] = true := by decide

/-! ## Advance, halt, jump and fault (L2.4, L2.6, L2.7) -/

/-- H1. -/
theorem test_halt_at_the_last_address :
    stepGives (at7 7 3 0b00100100#8) (fun s => { s with ri := 0, rc := 0, halted := true }) = true := by decide

/-- H2. -/
theorem test_jump_in_cycle_3_to_slot_7_halts :
    stepGives (at7 0 3 0b00100000#8) (fun s => { s with ri := 0, rc := 0, halted := true }) = true := by decide

/-- H5: CMD 0 shifted by 00 stays 0. -/
theorem test_advance_into_the_next_slot :
    stepGives (at7 5 3 0b00000000#8) (fun s => { s with ri := 6, rc := 0 }) = true := by decide

/-- H7. -/
theorem test_input_jump_truncates :
    stepGives { at7 6 3 0b10100000#8 with inputs := [15] }
      (fun s => { s with ri := 0, rc := 0, halted := true, inbuf := 15, inputs := [], inputsTaken := 1 }) = true :=
  by decide

/-- H9. -/
theorem test_halted_engine_takes_no_input :
    stepGives { at7 0 0 0b10100000#8 with halted := true, inputs := [4] } id = true := by decide

/-- F1. -/
theorem test_modulo_by_zero_faults :
    stepGives (beforeFault 8 0b10011111#8) (fun s => { s with fault := some ⟨3, 2, 8⟩ }) = true := by decide

/-- F2. -/
theorem test_divide_by_zero_faults :
    stepGives (beforeFault 1 0b10000100#8) (fun s => { s with fault := some ⟨3, 2, 1⟩ }) = true := by decide

/-- F5. -/
theorem test_no_fault_without_the_alu :
    stepGives { beforeFault 1 0b10110110#8 with inputs := [4] }
      (fun s => { s with rc := 3, r2 := 4, inbuf := 4, cmd := 6, inputs := [], inputsTaken := 1 }) = true := by decide

/-- F7. -/
theorem test_faulted_engine_stays :
    stepGives { beforeFault 8 0b00000000#8 with fault := some ⟨3, 2, 8⟩ } id = true := by decide

/-- K2, K4 and K5. -/
theorem test_command_assembly :
    (shiftCommand 3 (shiftCommand 1 (shiftCommand 0 { start with cmd := 31 }))).cmd = 7 ∧
    (shiftCommand 0 (shiftCommand 0 (shiftCommand 0 start))).cmd = 0 ∧
    (shiftCommand 3 (shiftCommand 2 { start with cmd := 9 })).cmd = 27 := by decide

/-- K9. -/
theorem test_shift_without_a_source :
    stepGives ({ start with cmd := 5 }.placeMicroword 0b11010011#8) (fun s => { s with rc := 2, cmd := 23 }) = true :=
  by decide

/-- R343, I5: with no answer to come the step does not complete. -/
theorem test_waits_for_input :
    step { at7 0 0 0b10111100#8 with supplyEnds := true } = .fault .waitsForInput := by rfl

/-- R7, R206: at GP_W = 2 the input value 10 loads A with 2. -/
theorem test_narrow_general_register_truncates :
    stepGives ({ start with gpWidth := .two, a := 0, b := 0, c := 0 }.placeMicroword 0b10100101#8)
      (fun s => { s with rc := 2, a := 2, inbuf := 10, inputs := [], inputsTaken := 1 }) = true := by decide

/-- R206, R344: at GP_W = 5 an A of 21 loads R1 with 5, and is emitted whole with width 5. -/
theorem test_wide_general_register :
    stepGives ({ start with gpWidth := .five, a := 21 }.placeMicroword 0b00110001#8)
      (fun s => { s with rc := 2, r1 := 5, cmd := 13 }) = true ∧
    stepGives ({ start with gpWidth := .five, a := 21 }.placeMicroword 0b00111001#8)
      (fun s => { s with rc := 2, output := [⟨1, 5, 21⟩] }) = true := by decide

/-! ## BitRegister (L2.1), loader (L2.8), reset (L2.9) -/

/-- B2, B5, B8, B9, B11, B15, B16, B18, B19. -/
theorem test_bitRegister_vectors :
    BitRegister.shiftIn 22#5 false = 12#5 ∧ BitRegister.shift2 19#5 3#2 = 15#5 ∧
    BitRegister.parallelLoad 4 (0#3).toNat = 0#4 ∧ BitRegister.parallelLoad 4 (7#3).toNat = 7#4 ∧
    BitRegister.increment 3#2 = 0#2 ∧ BitRegister.fromValue 4 (-1) = 15#4 ∧ BitRegister.fromValue 4 (-16) = 0#4 ∧
    BitRegister.get 8#4 3 = some true ∧ BitRegister.get 8#4 0 = some false ∧ BitRegister.get 8#4 4 = none := by decide

/-- M1: the accepted lines of an image with comments, an empty line and malformed lines. -/
theorem test_loader_m1 :
    romOfImage ("# header\n\n10100100\n1010010\n10100100\r\n1010 0100\n00110011\n2\n101001001\n#10100100\n00000021".toList) =
      [(0, 0b10100100#8), (1, 0b00110011#8)] := by decide

/-- E9: the 33rd accepted word is not stored. -/
theorem test_loader_stops_at_32 : Memory.read (storeWords (List.replicate 33 255#8) 0 []) 32 = 0#8 := by decide

/-- Z2: the reset request clears the fault and keeps the ROM. -/
theorem test_reset_request :
    (resetRequest { beforeFault 8 1#8 with fault := some ⟨3, 2, 8⟩ }).fault = none ∧
    (resetRequest (beforeFault 8 1#8)).rom = [(14, 1#8)] := by decide

/-! ## States that meet the hypotheses of the statements -/

theorem test_witness_EveryInstructionDecodesFromItsEncoding :
    (Instr.movOutB 3).wellFormedAs .microword = true ∧ Instr.alu31XnorAlt.wellFormedAs .aluCommand = true :=
  by decide

theorem test_witness_StepRunsTheDecodedMicroword :
    Running State.reset ∧ (Instr.movRiRi 0).wellFormedAs .microword = true ∧
    decode [State.reset.rom.read (4 * State.reset.ri.toNat + State.reset.rc.toNat)] = .ok (.movRiRi 0, []) :=
  ⟨⟨rfl, rfl⟩, by decide, by decide⟩

theorem test_witness_HaltedOrFaultedEngineStaysAsItIs :
    { start with halted := true }.halted = true ∧ { start with fault := some ⟨2, 1, 1⟩ }.fault ≠ none := by decide

theorem test_witness_StepHaltsOnlyAtTheOrigin_halting :
    Running (at7 7 3 0b00100100#8) ∧
    nextIs (step (at7 7 3 0b00100100#8)) { at7 7 3 0b00100100#8 with ri := 0, rc := 0, halted := true } = true :=
  ⟨⟨rfl, rfl⟩, by decide⟩

theorem test_witness_StepHaltsOnlyAtTheOrigin_going_on :
    Running (at7 7 2 0b00100100#8) ∧
    nextIs (step (at7 7 2 0b00100100#8)) { at7 7 2 0b00100100#8 with rc := 3 } = true := ⟨⟨rfl, rfl⟩, by decide⟩

theorem test_witness_EveryCompletedStepMovesOn_faulting :
    Running (beforeFault 8 0b10011111#8) ∧
    nextIs (step (beforeFault 8 0b10011111#8)) { beforeFault 8 0b10011111#8 with fault := some ⟨3, 2, 8⟩ } = true :=
  ⟨⟨rfl, rfl⟩, by decide⟩

theorem test_witness_EveryCompletedStepMovesOn_completing :
    Running (at7 7 3 0b00100100#8) ∧
    nextIs (step (at7 7 3 0b00100100#8)) { at7 7 3 0b00100100#8 with ri := 0, rc := 0, halted := true } = true :=
  ⟨⟨rfl, rfl⟩, by decide⟩

theorem test_witness_WithoutSlotWritesTheEngineHaltsAfter32Steps :
    Running State.reset ∧ State.reset.ri = 0 ∧ State.reset.rc = 0 ∧
    (∀ ri rc, keepsSlot (romRead State.reset.rom ri rc) = true) ∧
    Host.Core.run Sys2Proof.core 0 State.reset = .next State.reset ∧
    nextIs (Host.Core.run Sys2Proof.core 32 State.reset) { State.reset with halted := true } = true :=
  ⟨⟨rfl, rfl⟩, rfl, rfl, by decide, rfl, by decide +kernel⟩

theorem test_witness_OnlyAMissingInputStopsARun :
    State.reset.supplyEnds = false := by decide

theorem test_witness_ComputedJumpTargets_cycle_2 :
    (at7 3 2 0b00100000#8).rc.toNat < 3 ∧ Running (at7 3 2 0b00100000#8) ∧
    nextIs (exec (.movRiA 0) (at7 3 2 0b00100000#8)) { at7 3 2 0b00100000#8 with ri := 7, rc := 3 } = true :=
  ⟨by decide, ⟨rfl, rfl⟩, by decide⟩

theorem test_witness_ComputedJumpTargets_cycle_3_halting :
    (at7 3 3 0b00100000#8).rc.toNat = 3 ∧ Running (at7 3 3 0b00100000#8) ∧
    nextIs (exec (.movRiA 0) (at7 3 3 0b00100000#8)) { at7 3 3 0b00100000#8 with ri := 0, rc := 0, halted := true } = true :=
  ⟨by decide, ⟨rfl, rfl⟩, by decide⟩

theorem test_witness_ComputedJumpTargets_cycle_3_going_on :
    { start with rc := 3 }.rc.toNat = 3 ∧ Running { start with rc := 3 } ∧
    nextIs (exec (.movRiB 0) { start with rc := 3 }) { start with ri := 7, rc := 0, cmd := 12 } = true ∧
    nextIs (exec (.movRiC 0) { start with rc := 3 }) { start with ri := 2, rc := 0, cmd := 12 } = true ∧
    nextIs (exec (.movRiIn 0) { start with rc := 3 }) { start with ri := 3, rc := 0, cmd := 12, inbuf := 10, inputs := [], inputsTaken := 1 } = true :=
  ⟨by decide, ⟨rfl, rfl⟩, by decide⟩

theorem test_witness_ComputedJumpTargets_from_ri :
    nextIs (exec (.movRiRi 0) { start with ri := 7, rc := 3 }) { start with ri := 0, rc := 0, cmd := 12, halted := true } = true ∧
    nextIs (exec (.movRiRi 0) start) { start with rc := 2, cmd := 12 } = true ∧ Running start ∧
    Running { start with ri := 7, rc := 3 } := ⟨by decide, by decide, ⟨rfl, rfl⟩, ⟨rfl, rfl⟩⟩

theorem test_witness_ComputedJumpTargets_from_alu :
    ¬ ((start.cmd = 1 ∨ start.cmd = 8) ∧ start.r2 = 0) ∧
    nextIs (exec (decodeAluCommand start.cmd) start) { start with aluout := 8 } = true ∧
    nextIs (exec (.movRiAlu 0) start) { start with ri := 0, rc := 2, cmd := 12, aluout := 8 } = true ∧
    nextIs (exec (.movRiAlu 0) { start with rc := 3 }) { start with ri := 1, rc := 0, cmd := 12, aluout := 8 } = true :=
  by decide

theorem test_witness_AluResultToRegister_fault :
    ((beforeFault 8 0#8).cmd = 1 ∨ (beforeFault 8 0#8).cmd = 8) ∧ (beforeFault 8 0#8).r2 = 0 := by decide

theorem test_witness_AluResultToRegister_result :
    ¬ ((start.cmd = 1 ∨ start.cmd = 8) ∧ start.r2 = 0) ∧
    ¬ (((beforeFault 9 0#8).cmd = 1 ∨ (beforeFault 9 0#8).cmd = 8) ∧ (beforeFault 9 0#8).r2 = 0) := by decide

theorem test_witness_AluResultToOutput :
    (((beforeFault 1 0#8).cmd = 1 ∨ (beforeFault 1 0#8).cmd = 8) ∧ (beforeFault 1 0#8).r2 = 0) ∧
    ¬ (({ start with cmd := 1 }.cmd = 1 ∨ { start with cmd := 1 }.cmd = 8) ∧ { start with cmd := 1 }.r2 = 0) :=
  by decide

theorem test_witness_DivisionByZeroIsRaisedExactlyByAZeroDivisor :
    Running (beforeFault 1 0b10000100#8) ∧ sourceOf ((fetch (beforeFault 1 0b10000100#8)).extractLsb' 5 3) = .alu ∧
    ((beforeFault 1 0b10000100#8).cmd = 1 ∨ (beforeFault 1 0b10000100#8).cmd = 8) ∧
    (beforeFault 1 0b10000100#8).r2 = 0 ∧
    nextIs (step (beforeFault 1 0b10000100#8)) { beforeFault 1 0b10000100#8 with fault := some ⟨3, 2, 1⟩ } = true :=
  ⟨⟨rfl, rfl⟩, by decide, by decide, by decide, by decide⟩

theorem test_witness_InputToRegister :
    InputReady start ∧ InputReady State.reset := ⟨.inl (by decide), .inr rfl⟩

theorem test_witness_InputToOutput :
    InputReady { start with supplyEnds := true } ∧ InputReady State.reset := ⟨.inl (by decide), .inr rfl⟩

theorem test_witness_DiscardedSourceStillTakesItsEffect :
    (((beforeFault 8 0#8).cmd = 1 ∨ (beforeFault 8 0#8).cmd = 8) ∧ (beforeFault 8 0#8).r2 = 0) ∧
    ¬ ((start.cmd = 1 ∨ start.cmd = 8) ∧ start.r2 = 0) ∧ InputReady start :=
  ⟨by decide, by decide, .inl (by decide)⟩

theorem test_witness_NextInputIsTheListedAnswer :
    start.inputs = 10 :: [] ∧ (State.reset.inputs = [] ∧ State.reset.supplyEnds = false) ∧
    ({ State.reset with supplyEnds := true }.inputs = [] ∧ { State.reset with supplyEnds := true }.supplyEnds = true) :=
  by decide

theorem test_witness_ExhaustedInputStopsTheStep :
    { start with inputs := [], supplyEnds := true }.inputs = [] ∧
    { start with inputs := [], supplyEnds := true }.supplyEnds = true := by decide

theorem test_witness_StepConsumesOneInputExactlyForSourceIn :
    Running (start.placeMicroword 0b10111101#8) ∧
    nextIs (step (start.placeMicroword 0b10111101#8))
      { start.placeMicroword 0b10111101#8 with rc := 2, inbuf := 10, inputs := [], inputsTaken := 1 } = true ∧
    sourceOf ((fetch (start.placeMicroword 0b10111101#8)).extractLsb' 5 3) = .input ∧
    nextIs (step (start.placeMicroword 0b11111101#8)) { start.placeMicroword 0b11111101#8 with rc := 2 } = true ∧
    sourceOf ((fetch (start.placeMicroword 0b11111101#8)).extractLsb' 5 3) ≠ .input :=
  ⟨⟨rfl, rfl⟩, by decide, by decide, by decide, by decide⟩

theorem test_witness_DivideAndModulo :
    start.r2 ≠ 0 ∧ (beforeFault 1 0#8).r2 = 0 := by decide

theorem test_witness_BitwiseDefaultsUnderTheSpecTable :
    State.reset.logicTable = LogicTable.specDefault := by decide

theorem test_witness_EvaluationChangesOnlyAluout :
    ¬ ((start.cmd = 1 ∨ start.cmd = 8) ∧ start.r2 = 0) ∧
    (((beforeFault 1 0#8).cmd = 1 ∨ (beforeFault 1 0#8).cmd = 8) ∧ (beforeFault 1 0#8).r2 = 0) := by decide

theorem test_witness_EvaluationReadsOnlyItsOperands :
    { start with a := 0, ri := 7 }.r1 = start.r1 ∧ { start with a := 0, ri := 7 }.r2 = start.r2 ∧
    { start with a := 0, ri := 7 }.cmd = start.cmd ∧ { start with a := 0, ri := 7 }.logicTable = start.logicTable ∧
    ¬ ((start.cmd = 1 ∨ start.cmd = 8) ∧ start.r2 = 0) ∧
    nextIs (exec (decodeAluCommand start.cmd) start) { start with aluout := 8 } = true ∧
    nextIs (exec (decodeAluCommand start.cmd) { start with a := 0, ri := 7 }) { start with a := 0, ri := 7, aluout := 8 } = true :=
  by decide

theorem test_witness_CommandBitsOnlyReachCmd :
    (Dest.a ≠ .ri ∧ Dest.a ≠ .r1 ∧ Dest.a ≠ .r2) ∧ start.fault = none ∧
    nextIs (exec (microwordOf .alu .r2 3) start) { start with rc := 2, r2 := 8, aluout := 8, cmd := 15 } = true :=
  by decide

theorem test_witness_OnlySelectors045ShiftCmd :
    Running (start.placeMicroword 0b11010001#8) ∧
    nextIs (step (start.placeMicroword 0b11010001#8)) { start.placeMicroword 0b11010001#8 with rc := 2, cmd := 13 } = true ∧
    nextIs (step (start.placeMicroword 0b11111101#8)) { start.placeMicroword 0b11111101#8 with rc := 2 } = true :=
  ⟨⟨rfl, rfl⟩, by decide, by decide⟩

theorem test_witness_RegistersChangeOnlyThroughTheirSelectors :
    nextIs (step (start.placeMicroword 0b11111101#8)) { start.placeMicroword 0b11111101#8 with rc := 2 } = true ∧
    destOf ((fetch (start.placeMicroword 0b11111101#8)).extractLsb' 2 3) = .d7 ∧
    sourceOf ((fetch (start.placeMicroword 0b11111101#8)).extractLsb' 5 3) = .s7 := by decide

theorem test_witness_RomIsNeverWrittenByARun :
    Host.Core.run Sys2Proof.core 1 (start.placeMicroword 0b11111101#8) = .next { start.placeMicroword 0b11111101#8 with rc := 2 } :=
  by rfl

theorem test_witness_OutputIsAppendedAndNeverReadBack :
    nextIs (step (start.placeMicroword 0b00111001#8))
      { start.placeMicroword 0b00111001#8 with rc := 2, output := [⟨1, 4, 13⟩] } = true ∧
    nextIs (step (start.placeMicroword 0b11011001#8)) { start.placeMicroword 0b11011001#8 with rc := 2 } = true :=
  by decide

theorem test_witness_EveryStepKeepsTheStateConsistent :
    State.reset.rom.wf = true ∧ GpInRange State.reset ∧
    (State.reset.halted = true → State.reset.ri = 0 ∧ State.reset.rc = 0 ∧ State.reset.fault = none) ∧
    FaultPrecise State.reset ∧ (∀ e ∈ State.reset.output, e.Legal .four) ∧
    nextIs (step State.reset) { State.reset with rc := 1 } = true :=
  ⟨rfl, ⟨by decide, by decide, by decide⟩, by decide, (fun _ h => by cases h), (fun _ h => by cases h), by decide⟩

theorem test_witness_AcceptedLineReadsAsABinaryNumber :
    lineKind "10100100".toList = .accepted 0b10100100#8 := by decide

theorem test_witness_ParallelLoadIsRightAligned :
    (2 < 3 ∧ 3 ≤ 3) ∧ BitRegister.parallelLoad 4 (5#3).toNat = 5#4 := by decide

theorem test_witness_BitAccessIsCheckedAgainstTheWidth :
    (4 ≤ 4 ∧ BitRegister.set 8#4 4 true = none) ∧ (3 < 4 ∧ BitRegister.set 8#4 3 false = some 0#4) := by decide

end Sys2Proof.Tests
end

section
/-! PROOFS. The microcode store (20_memory.md): no run writes the ROM (R63), and which lines the loader ignores, accepts and
skips (R65). -/

namespace Sys2Proof.Machine

/-- No step writes the ROM: neither a stopped step, the fault, nor a completed bus transfer does (R63). -/
theorem step_keeps_rom {s t : State} (h : step s = .next t) : t.rom = s.rom := by
  rcases step_cases h with ⟨-, rfl⟩ | ⟨-, hbus⟩
  · rfl
  · rcases busStep_source_keeps State.rom (fun _ _ => rfl) afterInput_rom hbus with
      ⟨-, -, rfl⟩ | ⟨-, rfl⟩ | ⟨e, w, v, rfl, he⟩
    · exact raiseDivisionByZero_rom s
    · exact completeStep_rom _ _ s
    · rw [completeStep_rom, deliver_rom, he]

/-- No run writes the ROM (R63). -/
theorem run_keeps_rom {s t : State} {k : Nat} (h : Host.Core.run Sys2Proof.core k s = .next t) : t.rom = s.rom :=
  run_induct (fun u => u.rom = s.rom) (fun _ _ hu hstep => (step_keeps_rom hstep).trans hu) k s t rfl h

/-- Settles O46: the ROM a run leaves is the ROM it started with, so every index reads the same word. -/
theorem romIsNeverWrittenByARun : Obligations.RomIsNeverWrittenByARun := by
  intro s t k h
  have hrom : t.rom = s.rom := run_keeps_rom h
  exact ⟨hrom, fun n => by rw [hrom]⟩

theorem allBinary_iff (line : List Char) : allBinary line = true ↔ ∀ ch ∈ line, ch = '0' ∨ ch = '1' := by
  simp [allBinary]

/-- A number sign is no binary digit, so a line of 8 binary digits is not one the loader ignores: the kinds of R65 do not
overlap. -/
theorem not_ignored_of_eightBinary {line : List Char} (hlen : line.length = 8)
    (hbin : ∀ ch ∈ line, ch = '0' ∨ ch = '1') : ¬ (line = [] ∨ line.head? = some '#') := by
  rintro (rfl | hhead)
  · cases hlen
  · have hsign := hbin '#' (List.mem_of_head? hhead)
    exact absurd hsign (by decide)

theorem lineKind_eq_ignored_iff (line : List Char) :
    lineKind line = .ignored ↔ line = [] ∨ line.head? = some '#' := by
  unfold lineKind
  split
  case isTrue hign => simp only [hign]
  case isFalse hign => split <;> simp only [reduceCtorEq, hign]

/-- The accepted lines with the word each one gives (R65, R66). -/
theorem lineKind_eq_accepted_iff (line : List Char) (w : Byte) :
    lineKind line = .accepted w ↔
      (line.length = 8 ∧ ∀ ch ∈ line, ch = '0' ∨ ch = '1') ∧ BitVec.ofNat 8 (binaryValue line) = w := by
  unfold lineKind
  rw [← allBinary_iff]
  split
  case isTrue hign =>
    have hnot : ¬ (line.length = 8 ∧ allBinary line = true) :=
      fun ⟨hlen, hbin⟩ => not_ignored_of_eightBinary hlen ((allBinary_iff line).1 hbin) hign
    simp only [reduceCtorEq, hnot, false_and]
  case isFalse =>
    split
    case isTrue hbin => simp only [LineKind.accepted.injEq, hbin, true_and]
    case isFalse hbin => simp only [reduceCtorEq, hbin, false_and]

/-- Skipping is what the loader does when it neither ignores nor accepts. -/
theorem lineKind_eq_skipped_iff (line : List Char) :
    lineKind line = .skipped ↔ lineKind line ≠ .ignored ∧ ¬ ∃ w, lineKind line = .accepted w := by
  cases lineKind line <;> simp

/-- Settles O52: the two equivalences for ignored and accepted lines, and skipping as their complement. -/
theorem loaderAcceptsExactlyEightBinaryDigits : Obligations.LoaderAcceptsExactlyEightBinaryDigits := by
  intro line
  have haccepted : (∃ w, lineKind line = .accepted w) ↔
      line.length = 8 ∧ ∀ ch ∈ line, ch = '0' ∨ ch = '1' := by
    simp only [lineKind_eq_accepted_iff, exists_and_left, exists_eq', and_true]
  refine ⟨lineKind_eq_ignored_iff line, haccepted, ?_⟩
  rw [lineKind_eq_skipped_iff, haccepted, Ne, lineKind_eq_ignored_iff]

end Sys2Proof.Machine
end

section
/-! PROOFS. The command bits of a microword (30_encoding.md R92): within its own step they reach CMD and nothing else. -/

namespace Sys2Proof.Machine

theorem shiftsCommand_iff (dst : Dest) : shiftsCommand dst = true ↔ dst = .ri ∨ dst = .r1 ∨ dst = .r2 := by
  cases dst <;> decide

/-- With CMD out of sight, the end of a step is the advance and the halt test alone, which do not read CMD (R208-R210). -/
theorem completeStep_with_cmd (dst : Dest) (cc : CmdBits) (s : State) (k : CmdWord) :
    { completeStep dst cc s with cmd := k } = { finish s with cmd := k } := by
  unfold completeStep
  split <;> rfl

/-- A destination that does not shift CMD takes no command bits. -/
theorem completeStep_of_not_shifts {dst : Dest} (h : shiftsCommand dst = false) (cc : CmdBits) (s : State) :
    completeStep dst cc s = finish s := by
  simp [completeStep, h]

/-- CMD after a bus transfer that completes: it took the two command bits where rxId is 0, 4 or 5 (R208). -/
theorem busStep_cmd {src : Source} {dst : Dest} {cc : CmdBits} {s t : State} (h : busStep src dst cc s = .next t)
    (hcompletes : t.fault = none) :
    t.cmd = if shiftsCommand dst then BitRegister.shift2 s.cmd cc else s.cmd := by
  rcases busStep_source_keeps State.cmd (fun _ _ => rfl) afterInput_cmd h with
    ⟨-, -, rfl⟩ | ⟨-, rfl⟩ | ⟨e, w, v, rfl, he⟩
  · rw [raiseDivisionByZero_fault] at hcompletes
    cases hcompletes
  · exact completeStep_cmd dst cc s
  · rw [completeStep_cmd, deliver_cmd, he]

/-- The source is resolved before the command bits are used, so two values of them give outcomes of one kind, whose next states
differ in CMD alone. -/
theorem busStep_agree_but_cmd (src : Source) (dst : Dest) (cc cc' : CmdBits) (s : State) :
    AgreeUnder (fun t => { t with cmd := 0 }) (busStep src dst cc s) (busStep src dst cc' s) := by
  unfold busStep
  cases resolve src s with
  | value e w v => exact (completeStep_with_cmd _ _ _ _).trans (completeStep_with_cmd _ _ _ _).symm
  | unresolved e => exact (completeStep_with_cmd _ _ _ _).trans (completeStep_with_cmd _ _ _ _).symm
  | ends r => cases r <;> rfl

theorem busStep_eq_of_not_shifts {dst : Dest} (h : shiftsCommand dst = false) (src : Source) (cc cc' : CmdBits)
    (s : State) : busStep src dst cc s = busStep src dst cc' s := by
  simp only [busStep, completeStep_of_not_shifts h]

/-- Settles O42: every microword is a bus transfer, whose command bits are read by the command shift alone. -/
theorem commandBitsOnlyReachCmd : Obligations.CommandBitsOnlyReachCmd := by
  intro src dst cc cc' s
  simp only [exec_microwordOf]
  refine ⟨busStep_agree_but_cmd src dst cc cc' s, fun hri hr1 hr2 => ?_, fun t hdst _ hstep hcompletes => ?_⟩
  · have hkeeps : shiftsCommand dst = false := by
      rw [← Bool.not_eq_true, shiftsCommand_iff]
      simp only [hri, hr1, hr2, or_self, not_false_eq_true]
    exact busStep_eq_of_not_shifts hkeeps src cc cc' s
  · have hcmd := busStep_cmd hstep hcompletes
    rwa [if_pos ((shiftsCommand_iff dst).2 hdst)] at hcmd

end Sys2Proof.Machine
end

section
/-! PROOFS. The BitRegister operations (40_bitregister.md R121-R124, R128), each by what it does to the value and to the bits, for
a register of any width. -/

namespace Sys2Proof.Machine

section ShiftIn

variable {w : Nat} (x : BitVec w) (b : Bool)

/-- Serial load appends the bit at the low end and then drops what stands above the width (R121). -/
theorem shiftIn_eq_setWidth_concat : BitRegister.shiftIn x b = (x.concat b).setWidth w := by
  rw [← BitVec.ofNat_toNat, BitVec.toNat_concat, BitRegister.shiftIn]

@[simp] theorem toNat_shiftIn : (BitRegister.shiftIn x b).toNat = (x.toNat * 2 + b.toNat) % 2 ^ w :=
  BitVec.toNat_ofNat ..

theorem getLsbD_shiftIn {i : Nat} (hi : i < w) :
    (BitRegister.shiftIn x b).getLsbD i = if i = 0 then b else x.getLsbD (i - 1) := by
  simp only [shiftIn_eq_setWidth_concat, BitVec.getLsbD_setWidth, hi, decide_true, Bool.true_and,
    BitVec.getLsbD_concat]

end ShiftIn

section Increment

variable {w : Nat} (x : BitVec w)

@[simp] theorem toNat_increment : (BitRegister.increment x).toNat = (x.toNat + 1) % 2 ^ w := by
  simp only [BitRegister.increment, BitVec.toNat_add, BitVec.toNat_ofNat, Nat.add_mod_mod]

/-- n increments add n (R123). -/
theorem iterate_increment (n : Nat) : BitRegister.increment^[n] x = x + BitVec.ofNat w n := by
  induction n with
  | zero => exact (BitVec.add_zero x).symm
  | succ n ih => rw [Function.iterate_succ_apply', ih, BitRegister.increment, BitVec.ofNat_add, BitVec.add_assoc]

/-- Full-cycle wraparound (R128): 2^w is 0 in a register of width w. -/
theorem iterate_increment_two_pow : BitRegister.increment^[2 ^ w] x = x := by
  have hzero : BitVec.ofNat w (2 ^ w) = 0#w := by
    apply BitVec.eq_of_toNat_eq
    simp only [BitVec.toNat_ofNat, Nat.mod_self, Nat.zero_mod]
  rw [iterate_increment, hzero, BitVec.add_zero]

end Increment

section Value

variable {w : Nat} (x : BitVec w)

/-- The n low bits, weighted, spell the value modulo 2^n. -/
theorem sum_low_bits (n : Nat) :
    ∑ i ∈ Finset.range n, (x.getLsbD i).toNat * 2 ^ i = x.toNat % 2 ^ n := by
  induction n with
  | zero => simp only [Finset.range_zero, Finset.sum_empty, pow_zero, Nat.mod_one]
  | succ n ih =>
    have hbit : (x.getLsbD n).toNat = x.toNat / 2 ^ n % 2 := by
      rw [← BitVec.testBit_toNat, Nat.toNat_testBit]
    rw [Finset.sum_range_succ, ih, hbit, Nat.mod_pow_succ, Nat.mul_comm]

theorem toValue_eq_sum_bits :
    BitRegister.toValue x = ∑ i ∈ Finset.range w, (x.getLsbD i).toNat * 2 ^ i := by
  rw [sum_low_bits, Nat.mod_eq_of_lt x.isLt, BitRegister.toValue]

/-- fromValue keeps the non-negative remainder, of a negative integer too (R124). -/
theorem toNat_fromValue (v : Int) : ((BitRegister.fromValue w v).toNat : Int) = v % (2 ^ w : Nat) := by
  have hpos : ((2 ^ w : Nat) : Int) ≠ 0 := Int.natCast_ne_zero.2 (Nat.two_pow_pos w).ne'
  rw [BitRegister.fromValue, BitVec.toNat_ofInt, Int.toNat_of_nonneg (Int.emod_nonneg v hpos)]

/-- Reading a register and storing the value again changes nothing. -/
@[simp] theorem fromValue_toValue : BitRegister.fromValue w (BitRegister.toValue x) = x := by
  rw [BitRegister.fromValue, BitRegister.toValue, BitVec.ofInt_natCast, BitVec.ofNat_toNat, BitVec.setWidth_eq]

end Value

section ParallelLoad

variable {ws : Nat} (wd : Nat) (src : BitVec ws)

@[simp] theorem toNat_parallelLoad (v : Nat) : (BitRegister.parallelLoad wd v).toNat = v % 2 ^ wd :=
  BitVec.toNat_ofNat ..

/-- A load from a register is the change of width that keeps the low end (R122). -/
theorem parallelLoad_toNat : BitRegister.parallelLoad wd src.toNat = src.setWidth wd :=
  BitVec.ofNat_toNat wd src

theorem getLsbD_parallelLoad (i : Nat) :
    (BitRegister.parallelLoad wd src.toNat).getLsbD i = (decide (i < wd) && src.getLsbD i) := by
  rw [parallelLoad_toNat, BitVec.getLsbD_setWidth]

end ParallelLoad

/-- Settles O57: the round trip needs only that a stored value reads back, and the full cycle that 2^w increments add 2^w. -/
theorem bitRegisterLaws : Obligations.BitRegisterLaws :=
  ⟨fun _ _ => fromValue_toValue _, fun _ x => iterate_increment_two_pow x⟩

/-- Settles O58: one lemma for each operation. -/
theorem bitRegisterOperationValues : Obligations.BitRegisterOperationValues := fun _ x b v =>
  ⟨toNat_shiftIn x b, fun _ hi => getLsbD_shiftIn x b hi, toNat_increment x, toValue_eq_sum_bits x, toNat_fromValue v⟩

/-- Settles O59: the load is a change of width, so each bit below the destination's width is the source's, and the source has no
bit of its own at or above its width. -/
theorem parallelLoadIsRightAligned : Obligations.ParallelLoadIsRightAligned := by
  intro ws wd src
  refine ⟨toNat_parallelLoad wd _, fun i hi => ?_, fun i hi => ?_, ?_⟩
  · rw [getLsbD_parallelLoad, decide_eq_true hi, Bool.true_and]
  · rw [getLsbD_parallelLoad, BitVec.getLsbD_of_ge src i hi, Bool.and_false]
  · rw [parallelLoad_toNat, BitVec.setWidth_eq]

end Sys2Proof.Machine
end

section
/-! PROOFS. The arithmetic commands of the ALU (41_alu_arith.md): the value eight of them write (R146, R149, R150, R153,
R155-R158), and what an evaluation changes, with a zero divisor and without (R160). -/

namespace Sys2Proof.Machine

section Aluout

variable {r : Int} {n : Nat} {s : State} {o : Result} {x : Nibble}

/-- Reducing modulo 16 before the 4-bit register does leaves the same value in it (R142). -/
theorem fromValue_four_eq_ofInt_emod (r : Int) : BitRegister.fromValue 4 r = BitVec.ofInt 4 (r % 16) := by
  apply BitVec.eq_of_toNat_eq
  simp only [BitRegister.fromValue, BitVec.toNat_ofInt]
  omega

/-- A result without a sign is reduced as a natural number. -/
theorem fromValue_four_eq_ofNat_mod (h : r = n) : BitRegister.fromValue 4 r = BitVec.ofNat 4 (n % 16) := by
  have hmod : (n : Int) % 16 = ((n % 16 : Nat) : Int) := (Int.natCast_mod n 16).symm
  rw [fromValue_four_eq_ofInt_emod, h, hmod, BitVec.ofInt_natCast]

/-- A command that writes ALUOUT is settled by the value it writes; nothing else changes (R142, R160). -/
theorem next_aluout_of_writeAluout (ho : o = .next (writeAluout r s)) (hr : BitRegister.fromValue 4 r = x) :
    o = .next { s with aluout := x } := by
  subst ho hr
  rfl

end Aluout

/-- A divide or modulo with a zero divisor raises the fault, and does nothing else (R159, R160). -/
theorem aluEvaluate_of_divisionFault {s : State} (h : divisionFault s = true) :
    aluEvaluate s = .next (raiseDivisionByZero s) := by
  obtain ⟨hdivide | hmodulo, hzero⟩ := (divisionFault_iff s).1 h
  · simp [aluEvaluate, hdivide, execAlu1Divide, hzero]
  · simp [aluEvaluate, hmodulo, execAlu8Modulo, hzero]

/-- Settles O40: the command in CMD is what an evaluation runs, and the fault test tells its two outcomes apart. -/
theorem evaluationChangesOnlyAluout : Obligations.EvaluationChangesOnlyAluout := by
  intro s
  rw [← aluEvaluate_eq_exec, ← divisionFault_iff, Bool.not_eq_true]
  exact ⟨aluEvaluate_next, aluEvaluate_of_divisionFault⟩

/-- Settles O34: each command writes ALUOUT, so only the integer it writes is to be compared; the average and the identity fit 4
bits, and the results that can be negative keep the integer remainder. -/
theorem arithmeticCommandResults : Obligations.ArithmeticCommandResults := by
  intro s
  refine ⟨?add, ?average, ?multiply, ?productMinusSum, ?squaredDifference, ?identity, ?square, ?decrement⟩
  case add => exact next_aluout_of_writeAluout rfl (fromValue_four_eq_ofNat_mod (Nat.cast_add _ _).symm)
  case average => exact next_aluout_of_writeAluout rfl (BitVec.ofInt_natCast ..)
  case multiply => exact next_aluout_of_writeAluout rfl (fromValue_four_eq_ofNat_mod (Nat.cast_mul _ _).symm)
  case productMinusSum => exact next_aluout_of_writeAluout rfl (fromValue_four_eq_ofInt_emod _)
  case squaredDifference => exact next_aluout_of_writeAluout rfl (fromValue_four_eq_ofInt_emod _)
  case identity => exact next_aluout_of_writeAluout rfl (fromValue_toValue s.r1)
  case square => exact next_aluout_of_writeAluout rfl (fromValue_four_eq_ofNat_mod (Nat.cast_mul _ _).symm)
  case decrement => exact next_aluout_of_writeAluout rfl (fromValue_four_eq_ofInt_emod _)

end Sys2Proof.Machine
end

section
/-! PROOFS. The dispatch (43_dispatch.md): which microword a step executes (R201), and the counter advance (R209). -/

namespace Sys2Proof.Machine

/-- The fetched word is the one at the row-major index of the ROM (R62, R201). -/
theorem fetch_eq_read (s : State) : fetch s = s.rom.read (4 * s.ri.toNat + s.rc.toNat) := rfl

/-- A running engine passes the guard of R200 and executes the microword it fetched (R211). -/
theorem step_eq_exec_fetched {s : State} (h : Running s) : step s = exec (decodeMicroword (fetch s)) s := by
  have hguard : stopped s = false := (running_iff s).1 h
  simp only [step, hguard, Bool.false_eq_true, if_false]

/-- The decoder reads a microword from the first byte and never rejects one (R96). -/
theorem decode_cons_eq_ok_iff {w : Byte} {bytes rest : List Byte} {i : Instr} :
    decode (w :: bytes) = .ok (i, rest) ↔ decodeMicroword w = i ∧ bytes = rest := by
  simp only [decode, Except.ok.injEq, Prod.mk.injEq]

/-- Settles O7: the word at the index is the fetched one, and the decoder of byte lists reads it as the step does. -/
theorem stepRunsTheDecodedMicroword : Obligations.StepRunsTheDecodedMicroword := by
  intro s i rest hrun _ hdecode
  rw [← fetch_eq_read] at hdecode
  obtain ⟨hfetched, -⟩ := decode_cons_eq_ok_iff.1 hdecode
  rw [step_eq_exec_fetched hrun, hfetched]

section AdvanceValues

variable (s : State)

/-- The frame of the advance: the two counters are all it writes (R209). -/
theorem advance_eq_with_counters : advance s = { s with rc := (advance s).rc, ri := (advance s).ri } := rfl

theorem toNat_advance_rc : (advance s).rc.toNat = (s.rc.toNat + 1) % 4 :=
  toNat_increment s.rc

/-- RI takes the carry of Rc, which is there exactly when the new Rc is 0 (R209). -/
theorem toNat_advance_ri :
    (advance s).ri.toNat = if (advance s).rc.toNat = 0 then (s.ri.toNat + 1) % 8 else s.ri.toNat := by
  have hwrap : (advance s).rc.toNat = 0 ↔ BitRegister.increment s.rc = 0 :=
    (BitVec.toNat_eq (y := 0)).symm
  simp only [hwrap, advance_ri]
  split
  case isTrue => exact toNat_increment s.ri
  case isFalse => rfl

end AdvanceValues

/-- Settles O9: the counters the advance leaves are the witnesses, with their values modulo 4 and 8. -/
theorem counterAdvanceWrapsRcIntoRi : Obligations.CounterAdvanceWrapsRcIntoRi := fun s =>
  ⟨(advance s).rc, (advance s).ri, advance_eq_with_counters s, toNat_advance_rc s, toNat_advance_ri s⟩

end Sys2Proof.Machine
end

section
/-! PROOFS. The transfers from a register source (44_transfers_regsrc.md): the whole next state of a move into each register and
to the output, from what the source gives, what the destination takes, and the command shift. -/

namespace Sys2Proof.Machine

section CommandShift

variable (cc : CmdBits)

/-- The two command bits spell their value, c1 the higher (R92). -/
theorem toNat_cmdBits : cc.toNat = (cc.getLsbD 1).toNat * 2 + (cc.getLsbD 0).toNat := by
  revert cc; decide

/-- Shifting in c1 and then c0 is one step of base 4 in the 5-bit CMD (R127, R208). -/
theorem shift2_eq_ofNat (cmd : CmdWord) :
    BitRegister.shift2 cmd cc = BitVec.ofNat 5 ((cmd.toNat * 4 + cc.toNat) % 32) := by
  apply BitVec.eq_of_toNat_eq
  simp only [BitRegister.shift2, toNat_shiftIn, BitVec.toNat_ofNat, toNat_cmdBits cc]
  omega

theorem completeStep_of_shifts {dst : Dest} (h : shiftsCommand dst = true) (s : State) :
    completeStep dst cc s =
      finish { s with cmd := BitVec.ofNat 5 ((s.cmd.toNat * 4 + cc.toNat) % 32) } := by
  rw [completeStep, if_pos h, shiftCommand, shift2_eq_ofNat]

end CommandShift

section Resolve

variable (s : State)

@[simp] theorem resolve_ri : resolve .ri s = .value s 3 s.ri.toNat := rfl
@[simp] theorem resolve_a : resolve .a s = .value s s.gpWidth.bits s.a.toNat := rfl
@[simp] theorem resolve_b : resolve .b s = .value s s.gpWidth.bits s.b.toNat := rfl
@[simp] theorem resolve_c : resolve .c s = .value s s.gpWidth.bits s.c.toNat := rfl

end Resolve

theorem parallelLoad_eq_ofNat_mod (w v : Nat) : BitRegister.parallelLoad w v = BitVec.ofNat w (v % 2 ^ w) := by
  apply BitVec.eq_of_toNat_eq
  simp only [toNat_parallelLoad, BitVec.toNat_ofNat, Nat.mod_mod]

theorem selfLoad_iff (src : Source) (dst : Dest) : selfLoad src dst = true ↔
    (src = .ri ∧ dst = .ri) ∨ (src = .a ∧ dst = .a) ∨ (src = .b ∧ dst = .b) ∨ (src = .c ∧ dst = .c) := by
  cases src <;> cases dst <;> decide

section Deliver

variable {src : Source} {w v : Nat} {s : State}

/-- A self-load is a no-op (R206). -/
theorem deliver_of_selfLoad {dst : Dest} (h : selfLoad src dst = true) : deliver src dst w v s = s := by
  obtain ⟨rfl, rfl⟩ | ⟨rfl, rfl⟩ | ⟨rfl, rfl⟩ | ⟨rfl, rfl⟩ := (selfLoad_iff src dst).1 h
  all_goals rfl

/-- Between different registers, delivering is loading (R206). -/
theorem deliver_eq_loadRegister {dst : Dest} (h : selfLoad src dst = false) (hout : dst ≠ .out) :
    deliver src dst w v s = loadRegister dst v s := by
  cases dst
  case out => exact absurd rfl hout
  case d7 => rfl
  all_goals simp only [deliver, h, Bool.false_eq_true, if_false]

theorem deliver_ri (h : selfLoad src .ri = false) :
    deliver src .ri w v s = { s with ri := BitVec.ofNat 3 (v % 8) } := by
  rw [deliver_eq_loadRegister h (by decide), loadRegister_ri, parallelLoad_eq_ofNat_mod]
  rfl

theorem deliver_a (h : selfLoad src .a = false) :
    deliver src .a w v s = { s with a := BitVec.ofNat 5 (v % 2 ^ s.gpWidth.bits) } := by
  rw [deliver_eq_loadRegister h (by decide), loadRegister_a, loadGp_eq]

theorem deliver_b (h : selfLoad src .b = false) :
    deliver src .b w v s = { s with b := BitVec.ofNat 5 (v % 2 ^ s.gpWidth.bits) } := by
  rw [deliver_eq_loadRegister h (by decide), loadRegister_b, loadGp_eq]

theorem deliver_c (h : selfLoad src .c = false) :
    deliver src .c w v s = { s with c := BitVec.ofNat 5 (v % 2 ^ s.gpWidth.bits) } := by
  rw [deliver_eq_loadRegister h (by decide), loadRegister_c, loadGp_eq]

theorem deliver_r1 (h : selfLoad src .r1 = false) :
    deliver src .r1 w v s = { s with r1 := BitVec.ofNat 4 (v % 16) } := by
  rw [deliver_eq_loadRegister h (by decide), loadRegister_r1, parallelLoad_eq_ofNat_mod]
  rfl

theorem deliver_r2 (h : selfLoad src .r2 = false) :
    deliver src .r2 w v s = { s with r2 := BitVec.ofNat 4 (v % 16) } := by
  rw [deliver_eq_loadRegister h (by decide), loadRegister_r2, parallelLoad_eq_ofNat_mod]
  rfl

/-- OUT records the event and loads no register (R207, R344). -/
theorem deliver_out : deliver src .out w v s = { s with output := s.output ++ [⟨src.code, w, v⟩] } := rfl

end Deliver

section Transfer

variable (src : Source) (dst : Dest) {cc : CmdBits} {s e t : State} {w v : Nat}

/-- A transfer whose source has a value, into a destination whose rxId shifts CMD: t is the state after the transfer (R208,
R211). -/
theorem exec_transfer_shifting (hsrc : resolve src s = .value e w v) (hdst : deliver src dst w v e = t)
    (hshift : shiftsCommand dst = true) :
    exec (microwordOf src dst cc) s =
      .next (finish { t with cmd := BitVec.ofNat 5 ((t.cmd.toNat * 4 + cc.toNat) % 32) }) := by
  rw [exec_microwordOf, busStep, hsrc, ← hdst, ← completeStep_of_shifts cc hshift]

/-- A transfer whose source has a value, into a destination whose rxId leaves CMD alone (R208, R211). -/
theorem exec_transfer_keeping (hsrc : resolve src s = .value e w v) (hdst : deliver src dst w v e = t)
    (hkeep : shiftsCommand dst = false) : exec (microwordOf src dst cc) s = .next (finish t) := by
  rw [exec_microwordOf, busStep, hsrc, ← hdst, ← completeStep_of_not_shifts hkeep cc]

end Transfer

/-- Settles O16: RI from itself is a self-load, from A, B and C a load; rxId 0 shifts CMD in every case. -/
theorem moveRegisterToRi : Obligations.MoveRegisterToRi := fun _ s =>
  ⟨exec_transfer_shifting .ri .ri (resolve_ri s) (deliver_of_selfLoad rfl) rfl,
    exec_transfer_shifting .a .ri (resolve_a s) (deliver_ri rfl) rfl,
    exec_transfer_shifting .b .ri (resolve_b s) (deliver_ri rfl) rfl,
    exec_transfer_shifting .c .ri (resolve_c s) (deliver_ri rfl) rfl⟩

/-- Settles O17: A from itself is a self-load, from RI, B and C a load; rxId 1 leaves CMD alone. -/
theorem moveRegisterToA : Obligations.MoveRegisterToA := fun _ s =>
  ⟨exec_transfer_keeping .ri .a (resolve_ri s) (deliver_a rfl) rfl,
    exec_transfer_keeping .a .a (resolve_a s) (deliver_of_selfLoad rfl) rfl,
    exec_transfer_keeping .b .a (resolve_b s) (deliver_a rfl) rfl,
    exec_transfer_keeping .c .a (resolve_c s) (deliver_a rfl) rfl⟩

/-- Settles O18: B from itself is a self-load, from RI, A and C a load; rxId 2 leaves CMD alone. -/
theorem moveRegisterToB : Obligations.MoveRegisterToB := fun _ s =>
  ⟨exec_transfer_keeping .ri .b (resolve_ri s) (deliver_b rfl) rfl,
    exec_transfer_keeping .a .b (resolve_a s) (deliver_b rfl) rfl,
    exec_transfer_keeping .b .b (resolve_b s) (deliver_of_selfLoad rfl) rfl,
    exec_transfer_keeping .c .b (resolve_c s) (deliver_b rfl) rfl⟩

/-- Settles O19: C from itself is a self-load, from RI, A and B a load; rxId 3 leaves CMD alone. -/
theorem moveRegisterToC : Obligations.MoveRegisterToC := fun _ s =>
  ⟨exec_transfer_keeping .ri .c (resolve_ri s) (deliver_c rfl) rfl,
    exec_transfer_keeping .a .c (resolve_a s) (deliver_c rfl) rfl,
    exec_transfer_keeping .b .c (resolve_b s) (deliver_c rfl) rfl,
    exec_transfer_keeping .c .c (resolve_c s) (deliver_of_selfLoad rfl) rfl⟩

/-- Settles O20: R1 is no bus source, so every move into it is a load; rxId 4 shifts CMD. -/
theorem moveRegisterToR1 : Obligations.MoveRegisterToR1 := fun _ s =>
  ⟨exec_transfer_shifting .ri .r1 (resolve_ri s) (deliver_r1 rfl) rfl,
    exec_transfer_shifting .a .r1 (resolve_a s) (deliver_r1 rfl) rfl,
    exec_transfer_shifting .b .r1 (resolve_b s) (deliver_r1 rfl) rfl,
    exec_transfer_shifting .c .r1 (resolve_c s) (deliver_r1 rfl) rfl⟩

/-- Settles O21: R2 is no bus source, so every move into it is a load; rxId 5 shifts CMD. -/
theorem moveRegisterToR2 : Obligations.MoveRegisterToR2 := fun _ s =>
  ⟨exec_transfer_shifting .ri .r2 (resolve_ri s) (deliver_r2 rfl) rfl,
    exec_transfer_shifting .a .r2 (resolve_a s) (deliver_r2 rfl) rfl,
    exec_transfer_shifting .b .r2 (resolve_b s) (deliver_r2 rfl) rfl,
    exec_transfer_shifting .c .r2 (resolve_c s) (deliver_r2 rfl) rfl⟩

/-- Settles O22: the event carries the source's selector code, width and value; rxId 6 leaves CMD alone. -/
theorem registerOutputEmitsOneEvent : Obligations.RegisterOutputEmitsOneEvent := fun _ s =>
  ⟨exec_transfer_keeping .ri .out (resolve_ri s) deliver_out rfl,
    exec_transfer_keeping .a .out (resolve_a s) deliver_out rfl,
    exec_transfer_keeping .b .out (resolve_b s) deliver_out rfl,
    exec_transfer_keeping .c .out (resolve_c s) deliver_out rfl⟩

end Sys2Proof.Machine
end

section
/-! PROOFS. The transfers from the ALU and from the input (45_transfers_alu_in_nop.md R290-R296, R298-R304): the effect of
resolving the source, the fault of a zero divisor, and the whole next state of a move into each register and to the output. -/

namespace Sys2Proof.Machine

section ResolveWithEffect

variable {s : State}

/-- The ALU as a source, where the fault test passes: v is what the command in CMD writes to ALUOUT (R203). -/
theorem exists_resolve_alu (h : divisionFault s = false) :
    ∃ v, exec (decodeAluCommand s.cmd) s = .next { s with aluout := v } ∧
      resolve .alu s = .value { s with aluout := v } 4 v.toNat := by
  obtain ⟨v, hv⟩ := aluEvaluate_next h
  refine ⟨v, (aluEvaluate_eq_exec s).symm.trans hv, ?_⟩
  simp only [resolve, resolveAlu, h, hv, Bool.false_eq_true, if_false]

/-- The ALU as a source, where the fault test fails: the step ends with the fault recorded (R203, R340). -/
theorem resolve_alu_of_divisionFault (h : divisionFault s = true) :
    resolve .alu s = .ends (.next (raiseDivisionByZero s)) := by
  simp only [resolve, resolveAlu, h, if_true]

/-- The input as a source, where an answer is listed or to come: its value is the answer taken into INBUF (R204, R343). -/
theorem resolve_input_of_ready (h : InputReady s) :
    resolve .input s = .value (afterInput s) 4 (nextInput s).toNat := by
  simp only [resolve, resolveInput, inRead_ready h, afterInput_inbuf]

end ResolveWithEffect

/-- No destination is the ALU, so a transfer from it is never a self-load (R206). -/
theorem selfLoad_alu (dst : Dest) : selfLoad .alu dst = false := by
  cases dst <;> rfl

/-- No destination is the input, so a transfer from it is never a self-load (R206). -/
theorem selfLoad_input (dst : Dest) : selfLoad .input dst = false := by
  cases dst <;> rfl

section TransferWithEffect

variable {src : Source} {s e : State} {w v : Nat}

/-- A source that is no destination, with value v in the state e its side effects leave: the transfer into each of the six
registers loads v modulo the register's width, and rxId 0, 4 and 5 shift CMD (R206, R208). -/
theorem exec_transfer_registers (cc : CmdBits) (hsrc : resolve src s = .value e w v)
    (hself : ∀ dst, selfLoad src dst = false) :
    exec (microwordOf src .ri cc) s = .next (finish { e with
      ri := BitVec.ofNat 3 (v % 8), cmd := BitVec.ofNat 5 ((e.cmd.toNat * 4 + cc.toNat) % 32) }) ∧
    exec (microwordOf src .a cc) s = .next (finish { e with a := BitVec.ofNat 5 (v % 2 ^ e.gpWidth.bits) }) ∧
    exec (microwordOf src .b cc) s = .next (finish { e with b := BitVec.ofNat 5 (v % 2 ^ e.gpWidth.bits) }) ∧
    exec (microwordOf src .c cc) s = .next (finish { e with c := BitVec.ofNat 5 (v % 2 ^ e.gpWidth.bits) }) ∧
    exec (microwordOf src .r1 cc) s = .next (finish { e with
      r1 := BitVec.ofNat 4 (v % 16), cmd := BitVec.ofNat 5 ((e.cmd.toNat * 4 + cc.toNat) % 32) }) ∧
    exec (microwordOf src .r2 cc) s = .next (finish { e with
      r2 := BitVec.ofNat 4 (v % 16), cmd := BitVec.ofNat 5 ((e.cmd.toNat * 4 + cc.toNat) % 32) }) :=
  ⟨exec_transfer_shifting src .ri hsrc (deliver_ri (hself .ri)) rfl,
    exec_transfer_keeping src .a hsrc (deliver_a (hself .a)) rfl,
    exec_transfer_keeping src .b hsrc (deliver_b (hself .b)) rfl,
    exec_transfer_keeping src .c hsrc (deliver_c (hself .c)) rfl,
    exec_transfer_shifting src .r1 hsrc (deliver_r1 (hself .r1)) rfl,
    exec_transfer_shifting src .r2 hsrc (deliver_r2 (hself .r2)) rfl⟩

end TransferWithEffect

/-- A zero divisor ends the step whatever the destination: nothing but the fault record is written (R340, decision D4). -/
theorem exec_alu_of_divisionFault {s : State} (h : divisionFault s = true) (dst : Dest) (cc : CmdBits) :
    exec (microwordOf .alu dst cc) s = .next { s with fault := some ⟨s.ri, s.rc, s.cmd⟩ } := by
  rw [exec_microwordOf, busStep, resolve_alu_of_divisionFault h]
  rfl

/-- Settles O23: the fault test decides; where it passes, the result of the evaluation is the value every transfer delivers. -/
theorem aluResultToRegister : Obligations.AluResultToRegister := by
  intro cc s
  rw [← divisionFault_iff, Bool.not_eq_true]
  refine ⟨fun hfault => ?_, fun hresult => ?_⟩
  · have hends := exec_alu_of_divisionFault hfault
    exact ⟨hends .ri cc, hends .a cc, hends .b cc, hends .c cc, hends .r1 cc, hends .r2 cc⟩
  · obtain ⟨v, hexec, hsrc⟩ := exists_resolve_alu hresult
    exact ⟨v, hexec, exec_transfer_registers cc hsrc selfLoad_alu⟩

/-- Settles O24: as for a register, with the result going into one event of selector 4 and width 4. -/
theorem aluResultToOutput : Obligations.AluResultToOutput := by
  intro cc s
  rw [← divisionFault_iff, Bool.not_eq_true]
  refine ⟨fun hfault => exec_alu_of_divisionFault hfault .out cc, fun hresult => ?_⟩
  obtain ⟨v, hexec, hsrc⟩ := exists_resolve_alu hresult
  exact ⟨v, hexec, exec_transfer_keeping .alu .out hsrc deliver_out rfl⟩

/-- Settles O26: the answer taken into INBUF is the value every transfer delivers. -/
theorem inputToRegister : Obligations.InputToRegister := fun cc _ hready =>
  exec_transfer_registers cc (resolve_input_of_ready hready) selfLoad_input

/-- Settles O27: the answer taken into INBUF goes into one event of selector 5 and width 4; rxId 6 leaves CMD alone. -/
theorem inputToOutput : Obligations.InputToOutput := fun _ _ hready =>
  exec_transfer_keeping .input .out (resolve_input_of_ready hready) deliver_out rfl

end Sys2Proof.Machine
end

section
/-! PROOFS. The encoding (30_encoding.md): decoding and encoding are inverse to each other, the rows of the opcode table, the
fields of a microword, and the pseudo-instructions. -/

namespace Sys2Proof

section Encode

variable {i : Instr} {src : Source} {dst : Dest} {cc : CmdBits} {cmd : CmdWord}

/-- A microword is its two selectors and its command bits, side by side (R90). -/
theorem encode_of_fields_mov (h : i.fields = .mov src dst cc) :
    encode i = .microword (src.code ++ dst.code ++ cc) := by
  rw [encode, h]

theorem encode_of_fields_command (h : i.fields = .command cmd) : encode i = .aluCommand cmd := by
  rw [encode, h]

@[simp] theorem encode_microwordOf (src : Source) (dst : Dest) (cc : CmdBits) :
    encode (microwordOf src dst cc) = .microword (src.code ++ dst.code ++ cc) :=
  encode_of_fields_mov (fields_microwordOf src dst cc)

/-- Decoding a word written from an operation's fields gives the operation back. -/
theorem decodeMicroword_of_fields (h : i.fields = .mov src dst cc) :
    decodeMicroword (src.code ++ dst.code ++ cc) = i := by
  rw [decodeMicroword_append, sourceOf_code, destOf_code, microwordOf_of_fields h]

end Encode

/-- Settles O1: an instruction is a microword or a command by its fields, and each of the two is rebuilt from what they encode. -/
theorem everyInstructionDecodesFromItsEncoding : Obligations.EveryInstructionDecodesFromItsEncoding := by
  intro f i hwf
  obtain rfl : i.format = f := of_decide_eq_true hwf
  cases hfields : i.fields with
  | mov src dst cc =>
    rw [encode_of_fields_mov hfields]
    exact ⟨format_of_fields_mov hfields, decodeMicroword_of_fields hfields⟩
  | command cmd =>
    rw [encode_of_fields_command hfields]
    exact ⟨format_of_fields_command hfields, decodeAluCommand_of_fields hfields⟩

/-- The three fields of a word, side by side, are the word (R90). -/
theorem append_fields (w : Byte) : w.extractLsb' 5 3 ++ w.extractLsb' 2 3 ++ w.extractLsb' 0 2 = w := by
  revert w; decide

/-- Settles O2: a word is its three fields, and a command is its number. -/
theorem everyWordEncodesBack : Obligations.EveryWordEncodesBack := by
  refine ⟨fun w => ?_, fun cmd => encode_of_fields_command (fields_decodeAluCommand cmd)⟩
  rw [decodeMicroword, encode_microwordOf, code_sourceOf, code_destOf, append_fields]

section Rows

/-- The row of a microword operation selects the six bits of the two selectors (R96). -/
theorem row_microwordOf (src : Source) (dst : Dest) (cc : CmdBits) :
    (microwordOf src dst cc).row = ⟨.microword, 0xFC, src.code ++ dst.code ++ 0#2⟩ := by
  cases src <;> cases dst <;> rfl

/-- The row of a command selects all five bits of CMD (R98). -/
theorem row_decodeAluCommand (cmd : CmdWord) : (decodeAluCommand cmd).row = ⟨.aluCommand, 0x1F, cmd.setWidth 8⟩ := by
  revert cmd; decide

/-- Under the mask of a microword row, a word is its two selectors. -/
theorem and_selector_mask (w : Byte) : w &&& 0xFC = w.extractLsb' 5 3 ++ w.extractLsb' 2 3 ++ 0#2 := by
  revert w; decide

/-- The row of the operation a word decodes to has the word's own selectors for its pattern. -/
theorem row_decodeMicroword (w : Byte) : (decodeMicroword w).row = ⟨.microword, 0xFC, w &&& 0xFC⟩ := by
  rw [decodeMicroword, row_microwordOf, code_sourceOf, code_destOf, and_selector_mask]

theorem fits_microword_iff (w mask pattern : Byte) :
    (Code.microword w).fits ⟨.microword, mask, pattern⟩ = true ↔ w &&& mask = pattern :=
  beq_iff_eq

theorem not_fits_aluCommand (w mask pattern : Byte) : (Code.microword w).fits ⟨.aluCommand, mask, pattern⟩ = false := rfl

end Rows

/-- Settles O3: a microword row is fitted by the words of its selectors, and no word has the format of a command row. -/
theorem wordsMatchTheirOpcodeTableRow : Obligations.WordsMatchTheirOpcodeTableRow := by
  intro w i
  cases hfields : i.fields with
  | mov src dst cc =>
    rw [microwordOf_of_fields hfields, row_microwordOf, row_decodeMicroword, fits_microword_iff]
    simp only [OpcodeRow.mk.injEq, true_and]
  | command cmd =>
    rw [← decodeAluCommand_of_fields hfields, row_decodeAluCommand, row_decodeMicroword, not_fits_aluCommand]
    simp only [OpcodeRow.mk.injEq, reduceCtorEq, false_and]

/-- Settles O4: the codes of the decoded selectors are the fields themselves, which are the word's quotients and remainders. -/
theorem decodeReadsTheSpecFields : Obligations.DecodeReadsTheSpecFields := by
  refine ⟨fun w => ⟨_, _, _, fields_microwordOf _ _ _, ?_, ?_, ?_⟩, rfl, rfl⟩
  · rw [code_sourceOf, BitVec.extractLsb'_toNat, Nat.shiftRight_eq_div_pow]
    omega
  · rw [code_destOf, BitVec.extractLsb'_toNat, Nat.shiftRight_eq_div_pow]
  · rw [BitVec.extractLsb'_toNat, Nat.shiftRight_zero]

/-- Settles O5, by running the decoder on each word. -/
theorem sampleWordsDecode : Obligations.SampleWordsDecode := by
  refine ⟨?_, ?_, ?_, ?_, ?_, ?_, ?_, ?_⟩ <;> rfl

/-- The word of `SHIFT cc` has both selectors 0 (R101). -/
theorem encode_shift (cc : CmdBits) : encode (.movRiRi cc) = .microword (0b000000#6 ++ cc) :=
  encode_microwordOf .ri .ri cc

/-- `LDCMD k` shifts in k from the high end: its lowest pair is k[1:0], and the top pair holds k[4] alone (R101). -/
theorem append_commandPairs (k : CmdWord) :
    0b000000#6 ++ k.extractLsb' 4 2 = BitVec.ofNat 8 (k.toNat / 16) ∧
    0b000000#6 ++ k.extractLsb' 2 2 = BitVec.ofNat 8 (k.toNat / 4 % 4) ∧
    0b000000#6 ++ k.extractLsb' 0 2 = BitVec.ofNat 8 (k.toNat % 4) := by
  revert k; decide

/-- Settles O6: each expansion consists of microword operations, whose words are their selectors and command bits. -/
theorem pseudoInstructionsExpand : Obligations.PseudoInstructionsExpand := by
  refine ⟨rfl, fun cc => ?shift, fun k => ?ldcmd, fun dst cc => ?inp, fun src => ?out, fun src => ?jmp⟩
  case shift => simp only [Pseudo.expand, List.map, encode_shift]
  case ldcmd =>
    obtain ⟨hhigh, hmiddle, hlow⟩ := append_commandPairs k
    simp only [Pseudo.expand, List.map, encode_shift, hhigh, hmiddle, hlow]
  case inp => simp only [Pseudo.expand, List.map, encode_microwordOf, Source.code]
  case out =>
    rw [Pseudo.expand, List.map_singleton, encode_microwordOf]
    cases src <;> rfl
  case jmp =>
    rw [Pseudo.expand, List.map_singleton, encode_microwordOf]
    cases src <;> rfl

end Sys2Proof
end

section
/-! PROOFS. The commands of the ALU by what they read and write: the remaining arithmetic commands (41_alu_arith.md R143-R145,
R147, R148, R151, R152, R154, R159), the bitwise commands (42_alu_logic.md R170-R188), and that an evaluation is a function of
its operands (R140). -/

namespace Sys2Proof.Machine

/-- Settles O35: each command writes ALUOUT, so only the integer it writes is to be compared; halving fits 4 bits. -/
theorem arithmeticCommandReadings : Obligations.ArithmeticCommandReadings := by
  intro s
  refine ⟨?passThroughZero, ?multiplyMinusOne, ?differenceOfSquares, ?double, ?halve, ?subtract⟩
  case passThroughZero => exact next_aluout_of_writeAluout rfl rfl
  case multiplyMinusOne => exact next_aluout_of_writeAluout rfl (fromValue_four_eq_ofInt_emod _)
  case differenceOfSquares => exact next_aluout_of_writeAluout rfl (fromValue_four_eq_ofInt_emod _)
  case double => exact next_aluout_of_writeAluout rfl (fromValue_four_eq_ofNat_mod (Nat.cast_mul 2 _).symm)
  case halve => exact next_aluout_of_writeAluout rfl (BitVec.ofInt_natCast ..)
  case subtract => exact next_aluout_of_writeAluout rfl (fromValue_four_eq_ofInt_emod _)

section Division

variable {s : State}

/-- Divide and modulo test their divisor before anything else (R159). -/
theorem exec_divide_of_ne_zero (h : s.r2 ≠ 0) :
    exec .alu1Divide s = .next (writeAluout (s.r1.toNat / s.r2.toNat : Nat) s) :=
  if_neg h

theorem exec_modulo_of_ne_zero (h : s.r2 ≠ 0) :
    exec .alu8Modulo s = .next (writeAluout (s.r1.toNat % s.r2.toNat : Nat) s) :=
  if_neg h

theorem exec_divide_of_zero (h : s.r2 = 0) : exec .alu1Divide s = .next (raiseDivisionByZero s) :=
  if_pos h

theorem exec_modulo_of_zero (h : s.r2 = 0) : exec .alu8Modulo s = .next (raiseDivisionByZero s) :=
  if_pos h

end Division

/-- Settles O36: with a divisor the quotient and the remainder are written, without one the fault is raised. -/
theorem divideAndModulo : Obligations.DivideAndModulo := fun _ =>
  ⟨fun hdivisor => ⟨next_aluout_of_writeAluout (exec_divide_of_ne_zero hdivisor) (BitVec.ofInt_natCast ..),
      next_aluout_of_writeAluout (exec_modulo_of_ne_zero hdivisor) (BitVec.ofInt_natCast ..)⟩,
    fun hzero => ⟨exec_divide_of_zero hzero, exec_modulo_of_zero hzero⟩⟩

section Bitwise

variable {f : Bool → Bool → Bool} {x y v : Nibble} {s : State} {o : Result}

/-- A bitwise command works on each bit pair by itself (R170). -/
theorem getLsbD_bitwiseApply (f : Bool → Bool → Bool) (x y : Nibble) {i : Nat} (hi : i < 4) :
    (bitwiseApply f x y).getLsbD i = f (x.getLsbD i) (y.getLsbD i) := by
  rw [bitwiseApply, BitVec.getLsbD_ofFnLE, dif_pos hi]

/-- A bitwise command is settled by one bit of the word it writes (R170). -/
theorem bitwiseApply_eq_of_bits (h : ∀ i, i < 4 → v.getLsbD i = f (x.getLsbD i) (y.getLsbD i)) :
    bitwiseApply f x y = v :=
  BitVec.eq_of_getLsbD_eq fun i hi => (getLsbD_bitwiseApply f x y hi).trans (h i hi).symm

theorem next_aluout_of_bitwiseCommand (ho : o = .next (bitwiseCommand f s))
    (h : ∀ i, i < 4 → v.getLsbD i = f (s.r1.getLsbD i) (s.r2.getLsbD i)) : o = .next { s with aluout := v } := by
  rw [ho, bitwiseCommand, bitwiseApply_eq_of_bits h]

end Bitwise

/-- Settles O37: each Boolean function, read at one bit. -/
theorem bitwiseCommandResults : Obligations.BitwiseCommandResults := by
  intro s
  refine ⟨?notR1, ?nand, ?one, ?xor, ?xnor, ?or, ?and, ?notR2, ?nor, ?xnor'⟩
  case one => exact next_aluout_of_bitwiseCommand rfl (by decide)
  all_goals exact next_aluout_of_bitwiseCommand rfl fun i hi => by simp [hi]

/-- Settles O38: the table looked up at each bit pair is the command's own. -/
theorem bitwiseParameterCommandsFollowTheLogicTable : Obligations.BitwiseParameterCommandsFollowTheLogicTable := by
  intro s
  have hbits (f : Bool → Bool → Bool) : ∀ i, i < 4 →
      (bitwiseApply f s.r1 s.r2).getLsbD i = f (s.r1.getLsbD i) (s.r2.getLsbD i) :=
    fun _ hi => getLsbD_bitwiseApply f s.r1 s.r2 hi
  refine ⟨⟨_, rfl, hbits _⟩, ⟨_, rfl, hbits _⟩, ⟨_, rfl, hbits _⟩, ⟨_, rfl, hbits _⟩, ⟨_, rfl, hbits _⟩,
    ⟨_, rfl, hbits _⟩, fun t a b => ?_⟩
  cases a <;> cases b <;> rfl

/-- The spec's default tables as Boolean functions (R188, decision D10). -/
theorem truthTableValue_specDefault (a b : Bool) :
    truthTableValue LogicTable.specDefault.k2 a b = (a || !b) ∧
    truthTableValue LogicTable.specDefault.k6 a b = (!a || b) ∧
    truthTableValue LogicTable.specDefault.k8 a b = (a && !b) ∧
    truthTableValue LogicTable.specDefault.k9 a b = (!a && b) ∧
    truthTableValue LogicTable.specDefault.k11 a b = (!(a ^^ b)) ∧
    truthTableValue LogicTable.specDefault.k15 a b = (!(a ^^ b)) := by
  revert a b; decide

/-- Settles O39: under the default tables each command is a Boolean function, read at one bit. -/
theorem bitwiseDefaultsUnderTheSpecTable : Obligations.BitwiseDefaultsUnderTheSpecTable := by
  intro s htable
  refine ⟨?k2, ?k6, ?k8, ?k9, ?k11, ?k15⟩
  all_goals
    refine next_aluout_of_bitwiseCommand rfl fun i hi => ?_
    rw [htable]
    simp [truthTableValue_specDefault, hi]

section Operands

/-- The state u with what an evaluation reads, R1, R2, CMD and LOGIC_TABLE, taken from s (R140). -/
def withOperandsOf (s u : State) : State :=
  { u with r1 := s.r1, r2 := s.r2, cmd := s.cmd, logicTable := s.logicTable }

variable {s s' u : State}

theorem withOperandsOf_eq_self (hr1 : s.r1 = s'.r1) (hr2 : s.r2 = s'.r2) (hcmd : s.cmd = s'.cmd)
    (htable : s.logicTable = s'.logicTable) : withOperandsOf s s' = s' := by
  rw [withOperandsOf, hr1, hr2, hcmd, htable]

/-- A command with no zero divisor writes the same value to ALUOUT in any two states with the same operands. -/
theorem exec_command_withOperandsOf {i : Instr} (hformat : i.format = .aluCommand)
    (hdivisor : i = .alu1Divide ∨ i = .alu8Modulo → s.r2 ≠ 0) :
    ∃ v, exec i s = .next { s with aluout := v } ∧
      exec i (withOperandsOf s u) = .next { withOperandsOf s u with aluout := v } := by
  cases i <;> cases hformat
  case alu1Divide.refl =>
    have hne : s.r2 ≠ 0 := hdivisor (.inl rfl)
    exact ⟨_, exec_divide_of_ne_zero hne, exec_divide_of_ne_zero (s := withOperandsOf s u) hne⟩
  case alu8Modulo.refl =>
    have hne : s.r2 ≠ 0 := hdivisor (.inr rfl)
    exact ⟨_, exec_modulo_of_ne_zero hne, exec_modulo_of_ne_zero (s := withOperandsOf s u) hne⟩
  all_goals exact ⟨_, rfl, rfl⟩

/-- CMD selects divide or modulo only by its values 1 and 8 (R98). -/
theorem cmd_of_decode_division {cmd : CmdWord}
    (h : decodeAluCommand cmd = .alu1Divide ∨ decodeAluCommand cmd = .alu8Modulo) : cmd = 1 ∨ cmd = 8 := by
  refine h.imp (fun hdivide => ?_) (fun hmodulo => ?_)
  · exact Fields.command.inj ((fields_decodeAluCommand cmd).symm.trans (congrArg Instr.fields hdivide))
  · exact Fields.command.inj ((fields_decodeAluCommand cmd).symm.trans (congrArg Instr.fields hmodulo))

/-- Where the fault test passes, the evaluation writes the same value to ALUOUT in any two states with the same operands
(R140). -/
theorem aluEvaluate_congr (hr1 : s.r1 = s'.r1) (hr2 : s.r2 = s'.r2) (hcmd : s.cmd = s'.cmd)
    (htable : s.logicTable = s'.logicTable) (hresult : divisionFault s = false) :
    ∃ v, aluEvaluate s = .next { s with aluout := v } ∧ aluEvaluate s' = .next { s' with aluout := v } := by
  have hdivisor : decodeAluCommand s.cmd = .alu1Divide ∨ decodeAluCommand s.cmd = .alu8Modulo → s.r2 ≠ 0 := by
    intro hdivision hzero
    rw [(divisionFault_iff s).2 ⟨cmd_of_decode_division hdivision, hzero⟩] at hresult
    cases hresult
  have hsame : aluEvaluate s' = exec (decodeAluCommand s.cmd) s' := by rw [aluEvaluate_eq_exec, hcmd]
  have hboth := exec_command_withOperandsOf (u := s') (format_of_fields_command (fields_decodeAluCommand s.cmd)) hdivisor
  rwa [withOperandsOf_eq_self hr1 hr2 hcmd htable, ← aluEvaluate_eq_exec, ← hsame] at hboth

end Operands

/-- Settles O41: with the same operands, both evaluations write the same value. -/
theorem evaluationReadsOnlyItsOperands : Obligations.EvaluationReadsOnlyItsOperands := by
  intro s s' t t' hr1 hr2 hcmd htable hresult ht ht'
  rw [← divisionFault_iff, Bool.not_eq_true] at hresult
  rw [← aluEvaluate_eq_exec] at ht ht'
  obtain ⟨v, hv, hv'⟩ := aluEvaluate_congr hr1 hr2 hcmd htable hresult
  cases ht.symm.trans hv
  cases ht'.symm.trans hv'
  rfl

end Sys2Proof.Machine
end

section
/-! PROOFS. The transfers that lack a source or a destination (44_transfers_regsrc.md, 45_transfers_alu_in_nop.md), and the input
read with its stop (60_exceptions.md R343). -/

namespace Sys2Proof.Machine

section BusStep

variable {src : Source} {dst : Dest} {cc : CmdBits} {s e : State} {w v : Nat} {r : Result}

/-- A bus transfer by what its source resolves to (R211): a value is delivered and the step ends; here and below. -/
theorem busStep_of_value (h : resolve src s = .value e w v) :
    busStep src dst cc s = .next (completeStep dst cc (deliver src dst w v e)) := by
  rw [busStep, h]

theorem busStep_of_unresolved (h : resolve src s = .unresolved e) :
    busStep src dst cc s = .next (completeStep dst cc e) := by
  rw [busStep, h]

theorem busStep_of_ends (h : resolve src s = .ends r) : busStep src dst cc s = r := by
  rw [busStep, h]

end BusStep

section NoTransfer

variable (src : Source) (dst : Dest) {cc : CmdBits} {s : State} {w v : Nat}

@[simp] theorem resolve_s6 : resolve .s6 s = .unresolved s := rfl
@[simp] theorem resolve_s7 : resolve .s7 s = .unresolved s := rfl

/-- D7 takes nothing (R207). -/
@[simp] theorem deliver_d7 : deliver src .d7 w v s = s := rfl

/-- Without a source, the step consists of its end (R205, R211). -/
theorem exec_unresolved (hsrc : resolve src s = .unresolved s) :
    exec (microwordOf src dst cc) s = .next (completeStep dst cc s) := by
  rw [exec_microwordOf, busStep_of_unresolved hsrc]

theorem exec_unresolved_shifting (hsrc : resolve src s = .unresolved s) (hshift : shiftsCommand dst = true) :
    exec (microwordOf src dst cc) s =
      .next (finish { s with cmd := BitVec.ofNat 5 ((s.cmd.toNat * 4 + cc.toNat) % 32) }) := by
  rw [exec_unresolved src dst hsrc, completeStep_of_shifts cc hshift]

theorem exec_unresolved_keeping (hsrc : resolve src s = .unresolved s) (hkeep : shiftsCommand dst = false) :
    exec (microwordOf src dst cc) s = .next (finish s) := by
  rw [exec_unresolved src dst hsrc, completeStep_of_not_shifts hkeep]

end NoTransfer

/-- Settles O32: without a source, the destinations RI, R1 and R2 leave the shift and the end of the step. -/
theorem unresolvedSourceShiftsOnly : Obligations.UnresolvedSourceShiftsOnly := fun _ _ =>
  ⟨exec_unresolved_shifting .s6 .ri resolve_s6 rfl,
    exec_unresolved_shifting .s6 .r1 resolve_s6 rfl,
    exec_unresolved_shifting .s6 .r2 resolve_s6 rfl,
    exec_unresolved_shifting .s7 .ri resolve_s7 rfl,
    exec_unresolved_shifting .s7 .r1 resolve_s7 rfl,
    exec_unresolved_shifting .s7 .r2 resolve_s7 rfl⟩

/-- Settles O33: D7 drops the value of a register, S6 and S7 give none, and none of these destinations shifts CMD. -/
theorem noTransferOnlyAdvances : Obligations.NoTransferOnlyAdvances := fun _ s =>
  ⟨exec_transfer_keeping .ri .d7 (resolve_ri s) (deliver_d7 .ri) rfl,
    exec_transfer_keeping .a .d7 (resolve_a s) (deliver_d7 .a) rfl,
    exec_transfer_keeping .b .d7 (resolve_b s) (deliver_d7 .b) rfl,
    exec_transfer_keeping .c .d7 (resolve_c s) (deliver_d7 .c) rfl,
    exec_unresolved_keeping .s6 .a resolve_s6 rfl,
    exec_unresolved_keeping .s6 .b resolve_s6 rfl,
    exec_unresolved_keeping .s6 .c resolve_s6 rfl,
    exec_unresolved_keeping .s6 .out resolve_s6 rfl,
    exec_unresolved_keeping .s6 .d7 resolve_s6 rfl,
    exec_unresolved_keeping .s7 .a resolve_s7 rfl,
    exec_unresolved_keeping .s7 .b resolve_s7 rfl,
    exec_unresolved_keeping .s7 .c resolve_s7 rfl,
    exec_unresolved_keeping .s7 .out resolve_s7 rfl,
    exec_unresolved_keeping .s7 .d7 resolve_s7 rfl⟩

/-- Settles O28: the source is resolved before the destination is looked at, so its effect stays when D7 drops the value. -/
theorem discardedSourceStillTakesItsEffect : Obligations.DiscardedSourceStillTakesItsEffect := by
  intro cc s
  rw [← divisionFault_iff, Bool.not_eq_true]
  refine ⟨fun hfault => exec_alu_of_divisionFault hfault .d7 cc, fun hresult => ?_, fun hready => ?_⟩
  · obtain ⟨v, hexec, hsrc⟩ := exists_resolve_alu hresult
    exact ⟨v, hexec, exec_transfer_keeping .alu .d7 hsrc (deliver_d7 _) rfl⟩
  · exact exec_transfer_keeping .input .d7 (resolve_input_of_ready hready) (deliver_d7 _) rfl

section InputRead

variable {s : State}

/-- The read waits exactly where nothing is listed and the supply ends (R343). -/
theorem not_inputReady_iff : ¬ InputReady s ↔ s.inputs = [] ∧ s.supplyEnds = true := by
  simp only [InputReady, not_or, not_not, Bool.not_eq_false]

theorem inRead_of_listed {v : Nibble} {rest : List Nibble} (h : s.inputs = v :: rest) :
    inRead s = some { s with inbuf := v, inputs := rest, inputsTaken := s.inputsTaken + 1 } := by
  rw [inRead, h]

theorem inRead_of_free (hnone : s.inputs = []) (hgoes : s.supplyEnds = false) :
    inRead s = some { s with inbuf := Config.inputAnswer s.inputsTaken, inputsTaken := s.inputsTaken + 1 } := by
  simp only [inRead, hnone, hgoes, Bool.false_eq_true, if_false]

theorem inRead_eq_afterInput_iff : inRead s = some (afterInput s) ↔ InputReady s := by
  refine ⟨fun hread => ?_, inRead_ready⟩
  by_contra hwait
  rw [inRead_none hwait] at hread
  cases hread

theorem resolve_input_of_not_ready (h : ¬ InputReady s) : resolve .input s = .ends (.fault .waitsForInput) := by
  simp only [resolve, resolveInput, inRead_none h]

/-- Whatever the destination, a read that is never answered leaves the step without a successor (R343, item I5). -/
theorem exec_input_of_not_ready (h : ¬ InputReady s) (dst : Dest) (cc : CmdBits) :
    exec (microwordOf .input dst cc) s = .fault .waitsForInput := by
  rw [exec_microwordOf, busStep_of_ends (resolve_input_of_not_ready h)]

end InputRead

/-- Settles O29: the three cases of the read, and that it gives `afterInput` unless it waits. -/
theorem nextInputIsTheListedAnswer : Obligations.NextInputIsTheListedAnswer :=
  ⟨fun _ _ _ => inRead_of_listed, fun _ => inRead_of_free,
    fun _ hnone hends => inRead_none (not_inputReady_iff.2 ⟨hnone, hends⟩), fun _ => inRead_eq_afterInput_iff.symm⟩

/-- Settles O30: the read stops the step before its destination matters. -/
theorem exhaustedInputStopsTheStep : Obligations.ExhaustedInputStopsTheStep := by
  intro cc s hnone hends
  have hstops := exec_input_of_not_ready (not_inputReady_iff.2 ⟨hnone, hends⟩)
  exact ⟨hstops .ri cc, hstops .a cc, hstops .b cc, hstops .c cc, hstops .r1 cc, hstops .r2 cc, hstops .out cc,
    hstops .d7 cc⟩

end Sys2Proof.Machine
end

section
/-! PROOFS. What a step keeps: the inversion of a bus transfer by the state after the transfer, the frame of every step, and the
statements that follow from it about the registers, CMD, the fault, the input supply and the stop of a run (43_dispatch.md,
60_exceptions.md). -/

namespace Sys2Proof.Machine

section Frame

variable {α : Type} {f : State → α} {src : Source} {dst : Dest} {cc : CmdBits} {s e t u : State} {w v : Nat}

/-- u is the state after the transfer of a step: what the source's side effects and the delivery leave, or the state itself where
the source is unresolved (R203-R207). -/
def Transfers (src : Source) (dst : Dest) (s u : State) : Prop :=
  ((src = .s6 ∨ src = .s7) ∧ u = s) ∨ ∃ e w v, resolve src s = .value e w v ∧ u = deliver src dst w v e

/-- A bus transfer waits for an input that never arrives, takes the fault, or ends the step of the state after its transfer. -/
theorem busStep_outcomes (src : Source) (dst : Dest) (cc : CmdBits) (s : State) :
    (src = .input ∧ ¬ InputReady s ∧ busStep src dst cc s = .fault .waitsForInput) ∨
    (src = .alu ∧ divisionFault s = true ∧ busStep src dst cc s = .next (raiseDivisionByZero s)) ∨
    ∃ u, Transfers src dst s u ∧ busStep src dst cc s = .next (completeStep dst cc u) := by
  have hvalue : ∀ e w v, resolve src s = .value e w v →
      ∃ u, Transfers src dst s u ∧ busStep src dst cc s = .next (completeStep dst cc u) :=
    fun e w v hr => ⟨_, .inr ⟨e, w, v, hr, rfl⟩, busStep_of_value hr⟩
  cases src
  case alu =>
    cases hfault : divisionFault s with
    | true => exact .inr (.inl ⟨rfl, rfl, busStep_of_ends (resolve_alu_of_divisionFault hfault)⟩)
    | false =>
      obtain ⟨v, -, hr⟩ := exists_resolve_alu hfault
      exact .inr (.inr (hvalue _ _ _ hr))
  case input =>
    by_cases hready : InputReady s
    · exact .inr (.inr (hvalue _ _ _ (resolve_input_of_ready hready)))
    · exact .inl ⟨rfl, hready, busStep_of_ends (resolve_input_of_not_ready hready)⟩
  case s6 => exact .inr (.inr ⟨s, .inl ⟨.inl rfl, rfl⟩, rfl⟩)
  case s7 => exact .inr (.inr ⟨s, .inl ⟨.inr rfl, rfl⟩, rfl⟩)
  all_goals exact .inr (.inr (hvalue _ _ _ rfl))

/-- A bus transfer with a next state took the fault, or ended the step of the state after its transfer. -/
theorem busStep_next_cases (h : busStep src dst cc s = .next t) :
    (src = .alu ∧ divisionFault s = true ∧ t = raiseDivisionByZero s) ∨
    ∃ u, Transfers src dst s u ∧ t = completeStep dst cc u := by
  rcases busStep_outcomes src dst cc s with ⟨-, -, hstep⟩ | ⟨hsrc, hfault, hstep⟩ | ⟨u, htransfer, hstep⟩
  · cases h.symm.trans hstep
  · cases h.symm.trans hstep
    exact .inl ⟨hsrc, hfault, rfl⟩
  · cases h.symm.trans hstep
    exact .inr ⟨u, htransfer, rfl⟩

/-- The side effects of a source: the ALU writes ALUOUT, the input writes INBUF and the supply's record, the others nothing
(R203, R204). -/
theorem resolve_value_keeps (halu : src = .alu → ∀ (u : State) (x : Nibble), f { u with aluout := x } = f u)
    (hinput : src = .input → ∀ u, f (afterInput u) = f u) (h : resolve src s = .value e w v) : f e = f s := by
  cases src
  case alu =>
    cases hfault : divisionFault s with
    | true => cases (resolve_alu_of_divisionFault hfault).symm.trans h
    | false =>
      obtain ⟨x, -, hr⟩ := exists_resolve_alu hfault
      cases hr.symm.trans h
      exact halu rfl s x
  case input =>
    by_cases hready : InputReady s
    · cases (resolve_input_of_ready hready).symm.trans h
      exact hinput rfl s
    · cases (resolve_input_of_not_ready hready).symm.trans h
  case s6 => cases h
  case s7 => cases h
  all_goals
    cases h
    rfl

/-- Delivering emits an event, loads the destination, or does nothing (R206, R207). -/
theorem deliver_keeps (hemit : dst = .out → ∀ u, f (emit src.code w v u) = f u)
    (hload : ∀ u, f (loadRegister dst v u) = f u) (s : State) : f (deliver src dst w v s) = f s := by
  by_cases hout : dst = .out
  · subst hout
    exact hemit rfl s
  · cases hself : selfLoad src dst with
    | true => rw [deliver_of_selfLoad hself]
    | false => rw [deliver_eq_loadRegister hself hout, hload]

theorem transfers_keeps (halu : src = .alu → ∀ (u : State) (x : Nibble), f { u with aluout := x } = f u)
    (hinput : src = .input → ∀ u, f (afterInput u) = f u) (hdeliver : ∀ w v u, f (deliver src dst w v u) = f u)
    (h : Transfers src dst s u) : f u = f s := by
  obtain ⟨-, rfl⟩ | ⟨e, w, v, hresolve, rfl⟩ := h
  · rfl
  · rw [hdeliver, resolve_value_keeps halu hinput hresolve]

/-- The frame of a bus transfer: a part f of the state is kept when no operation of the step writes it. -/
theorem busStep_keeps (f : State → α) (hraise : ∀ u, f (raiseDivisionByZero u) = f u)
    (halu : src = .alu → ∀ (u : State) (x : Nibble), f { u with aluout := x } = f u)
    (hinput : src = .input → ∀ u, f (afterInput u) = f u) (hdeliver : ∀ w v u, f (deliver src dst w v u) = f u)
    (hend : ∀ u, f (completeStep dst cc u) = f u) (h : busStep src dst cc s = .next t) : f t = f s := by
  obtain ⟨-, -, rfl⟩ | ⟨u, htransfer, rfl⟩ := busStep_next_cases h
  · exact hraise s
  · rw [hend, transfers_keeps halu hinput hdeliver htransfer]

end Frame

section TransferFields

variable {src : Source} {dst : Dest} {s u : State}

theorem transfers_rc (h : Transfers src dst s u) : u.rc = s.rc :=
  transfers_keeps (fun _ _ _ => rfl) (fun _ => afterInput_rc) (deliver_rc src dst) h

theorem transfers_halted (h : Transfers src dst s u) : u.halted = s.halted :=
  transfers_keeps (fun _ _ _ => rfl) (fun _ => afterInput_halted) (deliver_halted src dst) h

theorem transfers_fault (h : Transfers src dst s u) : u.fault = s.fault :=
  transfers_keeps (fun _ _ _ => rfl) (fun _ => afterInput_fault) (deliver_fault src dst) h

end TransferFields

section LoadedRegister

variable (dst : Dest) (v : Nat) (s : State)

/-- A load writes its destination and no other register (R206); here, and below, read off one register. -/
theorem a_loadRegister : (loadRegister dst v s).a = if dst = .a then loadGp s.gpWidth v else s.a := by
  cases dst <;> rfl

theorem b_loadRegister : (loadRegister dst v s).b = if dst = .b then loadGp s.gpWidth v else s.b := by
  cases dst <;> rfl

theorem c_loadRegister : (loadRegister dst v s).c = if dst = .c then loadGp s.gpWidth v else s.c := by
  cases dst <;> rfl

theorem r1_loadRegister :
    (loadRegister dst v s).r1 = if dst = .r1 then BitRegister.parallelLoad 4 v else s.r1 := by
  cases dst <;> rfl

theorem r2_loadRegister :
    (loadRegister dst v s).r2 = if dst = .r2 then BitRegister.parallelLoad 4 v else s.r2 := by
  cases dst <;> rfl

end LoadedRegister

section DeliverOther

variable {src : Source} {dst : Dest} (w v : Nat) (s : State)

theorem deliver_keeps_a (h : dst ≠ .a) : (deliver src dst w v s).a = s.a :=
  deliver_keeps (f := State.a) (fun _ _ => rfl) (fun u => (a_loadRegister dst v u).trans (if_neg h)) s

theorem deliver_keeps_b (h : dst ≠ .b) : (deliver src dst w v s).b = s.b :=
  deliver_keeps (f := State.b) (fun _ _ => rfl) (fun u => (b_loadRegister dst v u).trans (if_neg h)) s

theorem deliver_keeps_c (h : dst ≠ .c) : (deliver src dst w v s).c = s.c :=
  deliver_keeps (f := State.c) (fun _ _ => rfl) (fun u => (c_loadRegister dst v u).trans (if_neg h)) s

theorem deliver_keeps_r1 (h : dst ≠ .r1) : (deliver src dst w v s).r1 = s.r1 :=
  deliver_keeps (f := State.r1) (fun _ _ => rfl) (fun u => (r1_loadRegister dst v u).trans (if_neg h)) s

theorem deliver_keeps_r2 (h : dst ≠ .r2) : (deliver src dst w v s).r2 = s.r2 :=
  deliver_keeps (f := State.r2) (fun _ _ => rfl) (fun u => (r2_loadRegister dst v u).trans (if_neg h)) s

theorem deliver_keeps_output (h : dst ≠ .out) : (deliver src dst w v s).output = s.output :=
  deliver_keeps (f := State.output) (fun hout => absurd hout h) (loadRegister_keeps_output dst v) s

end DeliverOther

/-- Settles O45: a stopped engine keeps everything; in a bus transfer each of these parts has one writer, which the hypothesis
rules out. -/
theorem registersChangeOnlyThroughTheirSelectors : Obligations.RegistersChangeOnlyThroughTheirSelectors := by
  intro s t h
  obtain ⟨-, rfl⟩ | ⟨-, hbus⟩ := step_cases h
  · simp only [implies_true, and_self]
  · refine ⟨fun ha => ?a, fun hb => ?b, fun hc => ?c, fun hr1 => ?r1, fun hr2 => ?r2, fun halu => ?aluout,
      fun hinput => ?inbuf, fun hout => ?output, ?logicTable, ?gpWidth⟩
    case a =>
      exact busStep_keeps State.a raiseDivisionByZero_a (fun _ _ _ => rfl) (fun _ => afterInput_a)
        (fun w v u => deliver_keeps_a w v u ha) (completeStep_a _ _) hbus
    case b =>
      exact busStep_keeps State.b raiseDivisionByZero_b (fun _ _ _ => rfl) (fun _ => afterInput_b)
        (fun w v u => deliver_keeps_b w v u hb) (completeStep_b _ _) hbus
    case c =>
      exact busStep_keeps State.c raiseDivisionByZero_c (fun _ _ _ => rfl) (fun _ => afterInput_c)
        (fun w v u => deliver_keeps_c w v u hc) (completeStep_c _ _) hbus
    case r1 =>
      exact busStep_keeps State.r1 raiseDivisionByZero_r1 (fun _ _ _ => rfl) (fun _ => afterInput_r1)
        (fun w v u => deliver_keeps_r1 w v u hr1) (completeStep_r1 _ _) hbus
    case r2 =>
      exact busStep_keeps State.r2 raiseDivisionByZero_r2 (fun _ _ _ => rfl) (fun _ => afterInput_r2)
        (fun w v u => deliver_keeps_r2 w v u hr2) (completeStep_r2 _ _) hbus
    case aluout =>
      exact busStep_keeps State.aluout raiseDivisionByZero_aluout (fun hsrc => absurd hsrc halu)
        (fun _ => afterInput_aluout) (deliver_aluout _ _) (completeStep_aluout _ _) hbus
    case inbuf =>
      exact busStep_keeps State.inbuf raiseDivisionByZero_inbuf (fun _ _ _ => rfl) (fun hsrc => absurd hsrc hinput)
        (deliver_inbuf _ _) (completeStep_inbuf _ _) hbus
    case output =>
      exact busStep_keeps State.output raiseDivisionByZero_output (fun _ _ _ => rfl) (fun _ => afterInput_output)
        (fun w v u => deliver_keeps_output w v u hout) (completeStep_output _ _) hbus
    case logicTable =>
      exact busStep_keeps State.logicTable raiseDivisionByZero_logicTable (fun _ _ _ => rfl)
        (fun _ => afterInput_logicTable) (deliver_logicTable _ _) (completeStep_logicTable _ _) hbus
    case gpWidth =>
      exact busStep_keeps State.gpWidth raiseDivisionByZero_gpWidth (fun _ _ _ => rfl)
        (fun _ => afterInput_gpWidth) (deliver_gpWidth _ _) (completeStep_gpWidth _ _) hbus

section InputSupply

variable {src : Source} {dst : Dest} {cc : CmdBits} {s t : State}

/-- No step makes a supply end, or go on. -/
theorem busStep_keeps_supplyEnds (h : busStep src dst cc s = .next t) : t.supplyEnds = s.supplyEnds :=
  busStep_keeps State.supplyEnds raiseDivisionByZero_supplyEnds (fun _ _ _ => rfl) (fun _ => afterInput_supplyEnds)
    (deliver_supplyEnds _ _) (completeStep_supplyEnds _ _) h

theorem step_keeps_supplyEnds (h : step s = .next t) : t.supplyEnds = s.supplyEnds := by
  obtain ⟨-, rfl⟩ | ⟨-, hbus⟩ := step_cases h
  · rfl
  · exact busStep_keeps_supplyEnds hbus

/-- A bus transfer from the input with a next state found an answer, and delivers it (R204). -/
theorem busStep_input_next (h : busStep .input dst cc s = .next t) :
    InputReady s ∧ t = completeStep dst cc (deliver .input dst 4 (nextInput s).toNat (afterInput s)) := by
  by_cases hready : InputReady s
  · cases (busStep_of_value (resolve_input_of_ready hready)).symm.trans h
    exact ⟨hready, rfl⟩
  · cases (busStep_of_ends (resolve_input_of_not_ready hready)).symm.trans h

end InputSupply

/-- Settles O31: the input read takes the first answer, and no other source touches the supply or INBUF. -/
theorem stepConsumesOneInputExactlyForSourceIn : Obligations.StepConsumesOneInputExactlyForSourceIn := by
  intro s t hrun h
  rw [step_running hrun] at h
  refine ⟨busStep_keeps_supplyEnds h, fun hinput => ?_, fun hother => ⟨?_, ?_, ?_⟩⟩
  · rw [hinput] at h
    obtain ⟨-, rfl⟩ := busStep_input_next h
    simp only [completeStep_inputsTaken, deliver_inputsTaken, afterInput_inputsTaken, completeStep_inputs,
      deliver_inputs, afterInput_inputs, and_self]
  · exact busStep_keeps State.inputsTaken raiseDivisionByZero_inputsTaken (fun _ _ _ => rfl)
      (fun hsrc => absurd hsrc hother) (deliver_inputsTaken _ _) (completeStep_inputsTaken _ _) h
  · exact busStep_keeps State.inputs raiseDivisionByZero_inputs (fun _ _ _ => rfl)
      (fun hsrc => absurd hsrc hother) (deliver_inputs _ _) (completeStep_inputs _ _) h
  · exact busStep_keeps State.inbuf raiseDivisionByZero_inbuf (fun _ _ _ => rfl)
      (fun hsrc => absurd hsrc hother) (deliver_inbuf _ _) (completeStep_inbuf _ _) h

/-- Settles O25: with source ALU the fault test decides the step, and a step that completes leaves no fault record. -/
theorem divisionByZeroIsRaisedExactlyByAZeroDivisor : Obligations.DivisionByZeroIsRaisedExactlyByAZeroDivisor := by
  intro s hrun
  rw [step_running hrun]
  refine ⟨fun hsrc hzero => ?_, fun t h hfault => ?_⟩
  · rw [hsrc]
    exact busStep_of_ends (resolve_alu_of_divisionFault ((divisionFault_iff s).2 hzero))
  · obtain ⟨hsrc, hzero, rfl⟩ | ⟨u, htransfer, rfl⟩ := busStep_next_cases h
    · obtain ⟨hcmd, hr2⟩ := (divisionFault_iff s).1 hzero
      exact ⟨hsrc, hcmd, hr2, rfl⟩
    · obtain ⟨-, hnone⟩ := hrun
      rw [completeStep_fault, transfers_fault htransfer] at hfault
      exact absurd hnone hfault

/-- The command shift as a number: one step of base 4 (R208). -/
theorem toNat_shift2 (cmd : CmdWord) (cc : CmdBits) :
    (BitRegister.shift2 cmd cc).toNat = (cmd.toNat * 4 + cc.toNat) % 32 := by
  rw [shift2_eq_ofNat, BitVec.toNat_ofNat, Nat.mod_mod]

/-- The command bits are the word's remainder modulo 4 (R92). -/
theorem toNat_commandBits (w : Byte) : (w.extractLsb' 0 2).toNat = w.toNat % 4 := by
  rw [BitVec.extractLsb'_toNat, Nat.shiftRight_zero]

/-- Settles O43: CMD after a completed step, read as a number. -/
theorem onlySelectors045ShiftCmd : Obligations.OnlySelectors045ShiftCmd := by
  intro s t hrun h hcompletes
  rw [step_running hrun] at h
  rw [busStep_cmd h hcompletes, ← toNat_commandBits, ← toNat_shift2, ← apply_ite BitVec.toNat]
  simp only [shiftsCommand_iff]

/-- Settles O44: each shift is one step of base 4 in 5 bits, so three of them leave one bit of the first pair. -/
theorem threeShiftsSetTheCommand : Obligations.ThreeShiftsSetTheCommand := by
  intro p1 p2 p3 s
  simp only [shiftCommand_cmd, toNat_shift2]
  have hp1 := p1.isLt
  have hp2 := p2.isLt
  have hp3 := p3.isLt
  omega

/-- A stopped engine stays as it is through any run (R200). -/
theorem run_stopped {s : State} (h : stopped s = true) (k : Nat) : Host.Core.run Sys2Proof.core k s = .next s := by
  induction k with
  | zero => rfl
  | succ k ih => rw [run_succ_of_next (step_stopped h), ih]

theorem stopped_iff (s : State) : stopped s = true ↔ s.halted = true ∨ s.fault ≠ none := by
  rw [stopped, Bool.or_eq_true, Option.isSome_iff_ne_none]

/-- Settles O8: every request of the run finds the engine stopped. -/
theorem haltedOrFaultedEngineStaysAsItIs : Obligations.HaltedOrFaultedEngineStaysAsItIs :=
  fun s k h => run_stopped ((stopped_iff s).2 h) k

/-- A step of a running engine waits for an input that never arrives, or has a next state (R341, R343). -/
theorem step_running_outcomes {s : State} (h : Running s) :
    (sourceOf ((fetch s).extractLsb' 5 3) = .input ∧ ¬ InputReady s ∧ step s = .fault .waitsForInput) ∨
    ∃ t, step s = .next t := by
  rw [step_running h]
  obtain hwaits | ⟨-, -, hstep⟩ | ⟨u, -, hstep⟩ := busStep_outcomes (sourceOf ((fetch s).extractLsb' 5 3))
    (destOf ((fetch s).extractLsb' 2 3)) ((fetch s).extractLsb' 0 2) s
  · exact .inl hwaits
  · exact .inr ⟨_, hstep⟩
  · exact .inr ⟨_, hstep⟩

/-- A step whose input read would be answered has a next state (R341). -/
theorem exists_step_of_inputReady {s : State} (h : InputReady s) : ∃ t, step s = .next t := by
  by_cases hrun : Running s
  · obtain ⟨-, hwait, -⟩ | hnext := step_running_outcomes hrun
    · exact absurd h hwait
    · exact hnext
  · rw [running_iff, Bool.not_eq_false] at hrun
    exact ⟨s, step_stopped hrun⟩

/-- Settles O14: a supply that goes on answers every read, and no step ends it. -/
theorem onlyAMissingInputStopsARun : Obligations.OnlyAMissingInputStopsARun := by
  intro s k hsupply
  induction k generalizing s with
  | zero => exact ⟨s, rfl⟩
  | succ k ih =>
    obtain ⟨u, hstep⟩ := exists_step_of_inputReady (.inr hsupply)
    rw [run_succ_of_next hstep]
    exact ih u ((step_keeps_supplyEnds hstep).trans hsupply)

end Sys2Proof.Machine
end

section
/-! PROOFS. The consistent states (00_scope.md R7; 43_dispatch.md R210; 60_exceptions.md R340, R342, R344): the reset state is
one, and every step keeps each clause of the invariant. -/

namespace Sys2Proof.Machine

/-- Settles O49: registers and ROM are zero at reset, and there is no halt, fault or event to speak of. -/
theorem resetStateIsConsistent : Obligations.ResetStateIsConsistent where
  rom_wf := reset_rom_wf
  gp_range := ⟨by decide, by decide, by decide⟩
  halted_origin := by intro h; cases h
  fault_precise := by intro f h; cases h
  output_legal := by intro e h; cases h

section GpRange

variable {src : Source} {dst : Dest} {s : State} (w v : Nat)

/-- A load keeps the general registers within their width: it stores the value modulo 2^GP_W (R206). -/
theorem gpInRange_loadRegister (h : GpInRange s) : GpInRange (loadRegister dst v s) := by
  obtain ⟨ha, hb, hc⟩ := h
  cases dst
  case a => exact ⟨loadGp_lt s.gpWidth v, hb, hc⟩
  case b => exact ⟨ha, loadGp_lt s.gpWidth v, hc⟩
  case c => exact ⟨ha, hb, loadGp_lt s.gpWidth v⟩
  all_goals exact ⟨ha, hb, hc⟩

theorem gpInRange_deliver (h : GpInRange s) : GpInRange (deliver src dst w v s) := by
  by_cases hout : dst = .out
  · subst hout
    exact h
  · cases hself : selfLoad src dst with
    | true => rwa [deliver_of_selfLoad hself]
    | false =>
      rw [deliver_eq_loadRegister hself hout]
      exact gpInRange_loadRegister v h

end GpRange

section OutputEvents

/-- The event a transfer emits: one for the destination OUT, none for any other (R207, R344). -/
def emitted (src : Source) (dst : Dest) (w v : Nat) : List OutputEvent :=
  if dst = .out then [⟨src.code, w, v⟩] else []

variable {src : Source} {dst : Dest} {s e : State} {w v : Nat}

theorem output_deliver : (deliver src dst w v s).output = s.output ++ emitted src dst w v := by
  by_cases hout : dst = .out
  · subst hout
    rfl
  · rw [deliver_keeps_output w v s hout, emitted, if_neg hout, List.append_nil]

/-- What a source resolves to makes a legal event: the selector has a value, the width is the source's, and the value fits it
(R344). A general register fits because it is in range. -/
theorem legal_of_resolve_value (hrange : GpInRange s) (h : resolve src s = .value e w v) :
    OutputEvent.Legal s.gpWidth ⟨src.code, w, v⟩ := by
  obtain ⟨ha, hb, hc⟩ := hrange
  cases src
  case ri => cases h; exact ⟨Nat.le_of_ble_eq_true rfl, rfl, s.ri.isLt⟩
  case a => cases h; exact ⟨Nat.le_of_ble_eq_true rfl, rfl, ha⟩
  case b => cases h; exact ⟨Nat.le_of_ble_eq_true rfl, rfl, hb⟩
  case c => cases h; exact ⟨Nat.le_of_ble_eq_true rfl, rfl, hc⟩
  case alu =>
    cases hfault : divisionFault s with
    | true => cases (resolve_alu_of_divisionFault hfault).symm.trans h
    | false =>
      obtain ⟨x, -, hr⟩ := exists_resolve_alu hfault
      cases hr.symm.trans h
      exact ⟨Nat.le_of_ble_eq_true rfl, rfl, x.isLt⟩
  case input =>
    by_cases hready : InputReady s
    · cases (resolve_input_of_ready hready).symm.trans h
      exact ⟨Nat.le_of_ble_eq_true rfl, rfl, (nextInput s).isLt⟩
    · cases (resolve_input_of_not_ready hready).symm.trans h
  case s6 => cases h
  case s7 => cases h

end OutputEvents

section Transfer

variable {src : Source} {dst : Dest} {cc : CmdBits} {s u : State}

theorem transfers_gpWidth (h : Transfers src dst s u) : u.gpWidth = s.gpWidth :=
  transfers_keeps (fun _ _ _ => rfl) (fun _ => afterInput_gpWidth) (deliver_gpWidth src dst) h

theorem transfers_rom (h : Transfers src dst s u) : u.rom = s.rom :=
  transfers_keeps (fun _ _ _ => rfl) (fun _ => afterInput_rom) (deliver_rom src dst) h

/-- The side effects of a source write no general register, so a transfer keeps them in range. -/
theorem gpInRange_transfers (hrange : GpInRange s) (h : Transfers src dst s u) : GpInRange u := by
  obtain ⟨-, rfl⟩ | ⟨e, w, v, hresolve, rfl⟩ := h
  · exact hrange
  · have hsame : GpInRange e = GpInRange s :=
      resolve_value_keeps (fun _ _ _ => rfl) (fun _ _ => rfl) hresolve
    exact gpInRange_deliver w v (hsame ▸ hrange)

/-- A transfer appends at most one event, which is legal. -/
theorem output_legal_transfers (hrange : GpInRange s) (hlegal : ∀ e ∈ s.output, e.Legal s.gpWidth)
    (h : Transfers src dst s u) : ∀ e ∈ u.output, e.Legal u.gpWidth := by
  rw [transfers_gpWidth h]
  obtain ⟨-, rfl⟩ | ⟨e, w, v, hresolve, rfl⟩ := h
  · exact hlegal
  · have hsame : e.output = s.output := resolve_value_keeps (fun _ _ _ => rfl) (fun _ => afterInput_output) hresolve
    intro event hevent
    rw [output_deliver, hsame, List.mem_append] at hevent
    obtain hold | hnew := hevent
    · exact hlegal event hold
    · have hone : event = ⟨src.code, w, v⟩ := by
        rw [emitted] at hnew
        split at hnew
        · exact List.mem_singleton.1 hnew
        · cases hnew
      rw [hone]
      exact legal_of_resolve_value hrange hresolve

/-- The state after the fault is consistent: the record is taken from the state, which is otherwise left alone (R340). -/
theorem inv_raiseDivisionByZero (hrun : Running s) (hinv : s.Inv) (hfault : divisionFault s = true) :
    (raiseDivisionByZero s).Inv where
  rom_wf := hinv.rom_wf
  gp_range := hinv.gp_range
  halted_origin := by
    intro hhalted
    obtain ⟨hnot, -⟩ := hrun
    rw [raiseDivisionByZero_halted, hnot] at hhalted
    cases hhalted
  fault_precise := by
    intro f hf
    cases hf
    obtain ⟨hcmd, hr2⟩ := (divisionFault_iff s).1 hfault
    exact ⟨rfl, rfl, rfl, hcmd, hr2⟩
  output_legal := hinv.output_legal

/-- The state after a completed step of a running engine is consistent: the halt test sees the origin, and there is no fault
record. -/
theorem inv_completeStep (hrun : Running s) (hinv : s.Inv) (h : Transfers src dst s u) :
    (completeStep dst cc u).Inv := by
  obtain ⟨hhalted, hfault⟩ := hrun
  have hnone : (completeStep dst cc u).fault = none := by rw [completeStep_fault, transfers_fault h, hfault]
  have hrange : GpInRange (completeStep dst cc u) := by
    rw [GpInRange, completeStep_a, completeStep_b, completeStep_c, completeStep_gpWidth]
    exact gpInRange_transfers hinv.gp_range h
  refine ⟨?rom, hrange, ?origin, ?precise, ?legal⟩
  case rom => rw [completeStep_rom, transfers_rom h, hinv.rom_wf]
  case origin =>
    intro hend
    obtain ⟨hri, hrc⟩ := (completeStep_halted_iff dst cc u ((transfers_halted h).trans hhalted)).1 hend
    exact ⟨hri, hrc, hnone⟩
  case precise =>
    intro f hf
    cases hnone.symm.trans hf
  case legal =>
    rw [completeStep_output, completeStep_gpWidth]
    exact output_legal_transfers hinv.gp_range hinv.output_legal h

end Transfer

/-- Settles O50: a stopped engine stays as it is, and the two ends of a bus transfer are consistent states. -/
theorem everyStepKeepsTheStateConsistent : Obligations.EveryStepKeepsTheStateConsistent := by
  intro s t hinv h
  obtain ⟨-, rfl⟩ | ⟨hrun, hbus⟩ := step_cases h
  · exact hinv
  · obtain ⟨-, hfault, rfl⟩ | ⟨u, htransfer, rfl⟩ := busStep_next_cases hbus
    · exact inv_raiseDivisionByZero hrun hinv hfault
    · exact inv_completeStep hrun hinv htransfer

end Sys2Proof.Machine
end

section
/-! PROOFS. What no step reads: the contents of ALUOUT and INBUF before they are overwritten (10_state.md R27, R28), and the
output sequence (60_exceptions.md R344). Both statements follow from one step of two states that differ in these three. -/

namespace Sys2Proof.Machine

section Unread

variable {src : Source} {dst : Dest} {cc : CmdBits} {s e t u : State} {w v : Nat} {x y : Nibble} {o : List OutputEvent}

/-- The state with other contents of ALUOUT, INBUF and the output sequence. -/
def withUnread (x y : Nibble) (o : List OutputEvent) (s : State) : State :=
  { s with aluout := x, inbuf := y, output := o }

/-- The events a bus transfer appends: that of its destination, where the source resolves to a value (R207, R344). -/
def busEvents (src : Source) (dst : Dest) (s : State) : List OutputEvent :=
  match resolve src s with
  | .value _ w v => emitted src dst w v
  | .unresolved _ => []
  | .ends _ => []

theorem busEvents_of_value (h : resolve src s = .value e w v) : busEvents src dst s = emitted src dst w v := by
  rw [busEvents, h]

theorem busEvents_of_unresolved (h : resolve src s = .unresolved e) : busEvents src dst s = [] := by
  rw [busEvents, h]

theorem busEvents_of_ends {r : Result} (h : resolve src s = .ends r) : busEvents src dst s = [] := by
  rw [busEvents, h]

/-- The ALU as a source, where the fault test passes and the evaluation is known (R203). -/
theorem resolve_alu_of_aluEvaluate {v : Nibble} (h : divisionFault s = false)
    (hv : aluEvaluate s = .next { s with aluout := v }) :
    resolve .alu s = .value { s with aluout := v } 4 v.toNat := by
  simp only [resolve, resolveAlu, h, hv, Bool.false_eq_true, if_false]

/-- A source resolves alike whatever ALUOUT, INBUF and the output held. The ALU overwrites ALUOUT and the input overwrites INBUF
before the bus reads them; what a source does not overwrite stays as it was (R203, R204). -/
theorem resolve_withUnread (src : Source) (x y : Nibble) (o : List OutputEvent) (s : State) :
    (∃ e w v x' y', resolve src s = .value e w v ∧
      resolve src (withUnread x y o s) = .value (withUnread x' y' o e) w v ∧
      (x = s.aluout → x' = e.aluout) ∧ (y = s.inbuf → y' = e.inbuf)) ∨
    (resolve src s = .unresolved s ∧ resolve src (withUnread x y o s) = .unresolved (withUnread x y o s)) ∨
    (resolve src s = .ends (.next (raiseDivisionByZero s)) ∧
      resolve src (withUnread x y o s) = .ends (.next (raiseDivisionByZero (withUnread x y o s)))) ∨
    ∃ f, resolve src s = .ends (.fault f) ∧ resolve src (withUnread x y o s) = .ends (.fault f) := by
  cases src
  case alu =>
    cases hfault : divisionFault s with
    | true =>
      exact .inr (.inr (.inl ⟨resolve_alu_of_divisionFault hfault,
        resolve_alu_of_divisionFault (s := withUnread x y o s) hfault⟩))
    | false =>
      obtain ⟨v, hv, hv'⟩ := aluEvaluate_congr (s := s) (s' := withUnread x y o s) rfl rfl rfl rfl hfault
      exact .inl ⟨_, _, _, v, y, resolve_alu_of_aluEvaluate hfault hv,
        resolve_alu_of_aluEvaluate (s := withUnread x y o s) hfault hv', fun _ => rfl, id⟩
  case input =>
    by_cases hready : InputReady s
    · exact .inl ⟨_, _, _, x, nextInput s, resolve_input_of_ready hready,
        resolve_input_of_ready (s := withUnread x y o s) hready, id, fun _ => rfl⟩
    · exact .inr (.inr (.inr ⟨_, resolve_input_of_not_ready hready,
        resolve_input_of_not_ready (s := withUnread x y o s) hready⟩))
  case s6 => exact .inr (.inl ⟨rfl, rfl⟩)
  case s7 => exact .inr (.inl ⟨rfl, rfl⟩)
  all_goals exact .inl ⟨_, _, _, x, y, rfl, rfl, id, id⟩

/-- Delivering reads none of the three; it appends its event to whatever the output held. -/
theorem deliver_withUnread : deliver src dst w v (withUnread x y o s) =
    withUnread x y (o ++ emitted src dst w v) (deliver src dst w v s) := by
  by_cases hout : dst = .out
  · subst hout
    rfl
  · rw [emitted, if_neg hout, List.append_nil]
    cases hself : selfLoad src dst with
    | true => rw [deliver_of_selfLoad hself, deliver_of_selfLoad hself]
    | false =>
      rw [deliver_eq_loadRegister hself hout, deliver_eq_loadRegister hself hout]
      cases dst <;> rfl

theorem completeStep_withUnread :
    completeStep dst cc (withUnread x y o s) = withUnread x y o (completeStep dst cc s) := by
  unfold completeStep
  split <;> rfl

/-- Two bus transfers from states that differ in the three stop alike, or append the same events and differ in nothing else
afterwards; contents that were the same stay the same. -/
theorem busStep_withUnread (src : Source) (dst : Dest) (cc : CmdBits) (x y : Nibble) (o : List OutputEvent) (s : State) :
    (∃ f, busStep src dst cc s = .fault f ∧ busStep src dst cc (withUnread x y o s) = .fault f) ∨
    ∃ t x' y', busStep src dst cc s = .next t ∧
      busStep src dst cc (withUnread x y o s) = .next (withUnread x' y' (o ++ busEvents src dst s) t) ∧
      (x = s.aluout → x' = t.aluout) ∧ (y = s.inbuf → y' = t.inbuf) := by
  obtain ⟨e, w, v, x', y', hr, hr', hx, hy⟩ | ⟨hr, hr'⟩ | ⟨hr, hr'⟩ | ⟨f, hr, hr'⟩ := resolve_withUnread src x y o s
  · refine .inr ⟨_, x', y', busStep_of_value hr, ?_, ?_, ?_⟩
    · rw [busStep_of_value hr', busEvents_of_value hr, ← completeStep_withUnread, ← deliver_withUnread]
    · rwa [completeStep_aluout, deliver_aluout]
    · rwa [completeStep_inbuf, deliver_inbuf]
  · refine .inr ⟨_, x, y, busStep_of_unresolved hr, ?_, ?_, ?_⟩
    · rw [busStep_of_unresolved hr', busEvents_of_unresolved hr, List.append_nil, completeStep_withUnread]
    · rw [completeStep_aluout]; exact id
    · rw [completeStep_inbuf]; exact id
  · refine .inr ⟨_, x, y, busStep_of_ends hr, ?_, id, id⟩
    rw [busStep_of_ends hr', busEvents_of_ends hr, List.append_nil]
    rfl
  · exact .inl ⟨f, busStep_of_ends hr, busStep_of_ends hr'⟩

/-- The events a step appends: none in a stopped engine, otherwise those of the fetched word's transfer. -/
def stepEvents (s : State) : List OutputEvent :=
  if stopped s then [] else busEvents (sourceOf ((fetch s).extractLsb' 5 3)) (destOf ((fetch s).extractLsb' 2 3)) s

theorem stepEvents_of_running (h : Running s) :
    stepEvents s = busEvents (sourceOf ((fetch s).extractLsb' 5 3)) (destOf ((fetch s).extractLsb' 2 3)) s :=
  if_neg (Bool.eq_false_iff.1 ((running_iff s).1 h))

theorem stepEvents_of_stopped (h : stopped s = true) : stepEvents s = [] :=
  if_pos h

/-- The guard and the fetch read none of the three either, so a step does with them what its bus transfer does. -/
theorem step_withUnread (x y : Nibble) (o : List OutputEvent) (s : State) :
    (∃ f, step s = .fault f ∧ step (withUnread x y o s) = .fault f) ∨
    ∃ t x' y', step s = .next t ∧ step (withUnread x y o s) = .next (withUnread x' y' (o ++ stepEvents s) t) ∧
      (x = s.aluout → x' = t.aluout) ∧ (y = s.inbuf → y' = t.inbuf) := by
  by_cases hrun : Running s
  · rw [step_running hrun, step_running (s := withUnread x y o s) hrun, stepEvents_of_running hrun]
    exact busStep_withUnread _ _ _ x y o s
  · have hstopped : stopped s = true := by rwa [running_iff, Bool.not_eq_false] at hrun
    refine .inr ⟨s, x, y, step_stopped hstopped, ?_, id, id⟩
    rw [step_stopped (s := withUnread x y o s) hstopped, stepEvents_of_stopped hstopped, List.append_nil]

theorem output_of_step (h : step s = .next t) : t.output = s.output ++ stepEvents s := by
  have hself : withUnread s.aluout s.inbuf s.output s = s := rfl
  obtain ⟨f, hf, -⟩ | ⟨t', x', y', -, hnext, -⟩ := step_withUnread s.aluout s.inbuf s.output s
  · cases h.symm.trans hf
  · rw [hself, h] at hnext
    cases hnext
    rfl

/-- The same step with another output sequence before it (R344). -/
theorem step_with_output (h : step s = .next t) (o : List OutputEvent) :
    step { s with output := o } = .next { t with output := o ++ stepEvents s } := by
  obtain ⟨f, hf, -⟩ | ⟨t', x', y', ht', hnext, haluout, hinbuf⟩ := step_withUnread s.aluout s.inbuf o s
  · cases h.symm.trans hf
  · cases h.symm.trans ht'
    rw [haluout rfl, hinbuf rfl] at hnext
    exact hnext

end Unread

/-- The state with ALUOUT and INBUF out of sight. -/
def withoutBuffers (s : State) : State :=
  { s with aluout := 0, inbuf := 0 }

/-- Two runs from states that differ in ALUOUT and INBUF alone stop alike, or end in such states. -/
theorem run_agree_withoutBuffers (k : Nat) (s : State) (x y : Nibble) :
    AgreeUnder withoutBuffers (Host.Core.run Sys2Proof.core k s)
      (Host.Core.run Sys2Proof.core k (withUnread x y s.output s)) := by
  induction k generalizing s x y with
  | zero => rfl
  | succ k ih =>
    obtain ⟨f, hf, hf'⟩ | ⟨t, x', y', ht, ht', -⟩ := step_withUnread x y s.output s
    · rw [run_succ_of_fault hf, run_succ_of_fault hf']
      rfl
    · rw [run_succ_of_next ht, run_succ_of_next ht', ← output_of_step ht]
      exact ih t x' y'

/-- Settles O47, by induction on the run: after each step the two states again differ in ALUOUT and INBUF alone. -/
theorem staleBuffersNeverInfluenceARun : Obligations.StaleBuffersNeverInfluenceARun :=
  fun s x y k => run_agree_withoutBuffers k s x y

section Events

variable {src : Source} {dst : Dest} {cc : CmdBits} {s t : State}

theorem emitted_ne_nil_iff (src : Source) (dst : Dest) (w v : Nat) : emitted src dst w v ≠ [] ↔ dst = .out := by
  rw [emitted]
  split
  case isTrue hout => simp only [ne_eq, reduceCtorEq, not_false_eq_true, hout]
  case isFalse hother => simp only [ne_eq, not_true_eq_false, hother]

theorem length_emitted_le_one (src : Source) (dst : Dest) (w v : Nat) : (emitted src dst w v).length ≤ 1 := by
  rw [emitted]
  split
  · exact Nat.le_refl 1
  · exact Nat.zero_le 1

theorem length_busEvents_le_one (src : Source) (dst : Dest) (s : State) : (busEvents src dst s).length ≤ 1 := by
  cases hr : resolve src s with
  | value e w v =>
    rw [busEvents_of_value hr]
    exact length_emitted_le_one src dst w v
  | unresolved e => rw [busEvents_of_unresolved hr]; exact Nat.zero_le 1
  | ends r => rw [busEvents_of_ends hr]; exact Nat.zero_le 1

/-- A bus transfer of an engine without a fault appends an event exactly when it completes with destination OUT and a source that
has a value (R344). -/
theorem busEvents_ne_nil_iff (hnone : s.fault = none) (h : busStep src dst cc s = .next t) :
    busEvents src dst s ≠ [] ↔ t.fault = none ∧ dst = .out ∧ src ≠ .s6 ∧ src ≠ .s7 := by
  obtain ⟨rfl, hfault, rfl⟩ | ⟨u, htransfer, rfl⟩ := busStep_next_cases h
  · rw [busEvents_of_ends (resolve_alu_of_divisionFault hfault), raiseDivisionByZero_fault]
    simp only [ne_eq, not_true_eq_false, reduceCtorEq, false_and]
  · rw [completeStep_fault, transfers_fault htransfer]
    obtain ⟨rfl | rfl, -⟩ | ⟨e, w, v, hresolve, -⟩ := htransfer
    · rw [busEvents_of_unresolved (resolve_s6 (s := s))]
      simp only [ne_eq, not_true_eq_false, false_and, and_false]
    · rw [busEvents_of_unresolved (resolve_s7 (s := s))]
      simp only [ne_eq, not_true_eq_false, and_false]
    · have hs6 : src ≠ .s6 := by rintro rfl; cases hresolve
      have hs7 : src ≠ .s7 := by rintro rfl; cases hresolve
      rw [busEvents_of_value hresolve, emitted_ne_nil_iff]
      simp only [hnone, hs6, hs7, ne_eq, not_false_eq_true, and_true, true_and]

theorem length_stepEvents_le_one (s : State) : (stepEvents s).length ≤ 1 := by
  rw [stepEvents]
  split
  · exact Nat.zero_le 1
  · exact length_busEvents_le_one _ _ s

theorem stepEvents_ne_nil_iff (h : step s = .next t) :
    stepEvents s ≠ [] ↔ Running s ∧ t.fault = none ∧ destOf ((fetch s).extractLsb' 2 3) = .out ∧
      sourceOf ((fetch s).extractLsb' 5 3) ≠ .s6 ∧ sourceOf ((fetch s).extractLsb' 5 3) ≠ .s7 := by
  obtain ⟨hstopped, rfl⟩ | ⟨hrun, hbus⟩ := step_cases h
  · have hnot : ¬ Running t := by rw [running_iff, hstopped]; exact Bool.noConfusion
    simp only [stepEvents_of_stopped hstopped, hnot, ne_eq, not_true_eq_false, false_and]
  · obtain ⟨-, hnone⟩ := id hrun
    rw [stepEvents_of_running hrun, busEvents_ne_nil_iff hnone hbus]
    simp only [hrun, true_and]

end Events

/-- Settles O48: the step's events do not depend on the output before it, to which they are appended. -/
theorem outputIsAppendedAndNeverReadBack : Obligations.OutputIsAppendedAndNeverReadBack := by
  refine ⟨fun s t h => ⟨stepEvents s, output_of_step h, length_stepEvents_le_one s, stepEvents_ne_nil_iff h,
    step_with_output h⟩, fun s o => ?_⟩
  obtain ⟨f, hf, hf'⟩ | ⟨t, -, -, ht, -⟩ := step_withUnread s.aluout s.inbuf o s
  · rw [hf, show step { s with output := o } = .fault f from hf']
    rfl
  · rw [ht, step_with_output ht o]
    rfl

end Sys2Proof.Machine
end

section
/-! PROOFS. Where execution goes (43_dispatch.md R209, R210, R212, R213): when the end of a step halts, that every completed step
moves on, the targets of a computed jump, and the run of a ROM that never writes RI. -/

namespace Sys2Proof.Machine

section Finish

variable (s : State)

theorem finish_halted_iff :
    (finish s).halted = true ↔ s.halted = true ∨ ((finish s).ri = 0 ∧ (finish s).rc = 0) := by
  rw [finish_halted, haltTest_halted, Bool.or_eq_true, Bool.and_eq_true, beq_iff_eq, beq_iff_eq, advance_halted,
    or_comm, and_comm, finish_ri, finish_rc]

/-- The advance comes to the origin from the last address alone (R209, R210). -/
theorem finish_origin_iff : (finish s).ri = 0 ∧ (finish s).rc = 0 ↔ s.rc = 3 ∧ s.ri = 7 := by
  have hrc := toNat_advance_rc s
  have hri := toNat_advance_ri s
  have hrclt := s.rc.isLt
  have hrilt := s.ri.isLt
  rw [finish_ri, finish_rc]
  simp only [BitVec.toNat_eq, BitVec.ofNat_eq_ofNat, BitVec.toNat_ofNat]
  split at hri <;> omega

end Finish

/-- Settles O10: the halt test reads the advanced counters, which are 0 exactly after the last address. -/
theorem stepEndHaltsExactlyAtTheOrigin : Obligations.StepEndHaltsExactlyAtTheOrigin := fun s =>
  ⟨rfl, finish_halted_iff s, by rw [finish_halted_iff, finish_origin_iff]⟩

section WholeStep

variable {src : Source} {dst : Dest} {cc : CmdBits} {s t u : State}

theorem busStep_halted_iff (hrun : Running s) (h : busStep src dst cc s = .next t) :
    t.halted = true ↔ t.fault = none ∧ t.ri = 0 ∧ t.rc = 0 := by
  obtain ⟨hhalted, hnone⟩ := hrun
  obtain ⟨-, -, rfl⟩ | ⟨u, htransfer, rfl⟩ := busStep_next_cases h
  · simp only [raiseDivisionByZero_halted, raiseDivisionByZero_fault, hhalted, Bool.false_eq_true, reduceCtorEq,
      false_and]
  · rw [completeStep_halted_iff dst cc u ((transfers_halted htransfer).trans hhalted), completeStep_fault,
      transfers_fault htransfer]
    simp only [hnone, true_and]

/-- A completed transfer ends with the advance of the counters it left (R209). -/
theorem completeStep_counters (dst : Dest) (cc : CmdBits) (u : State) :
    (completeStep dst cc u).rc.toNat = (u.rc.toNat + 1) % 4 ∧
    (completeStep dst cc u).ri.toNat =
      if (u.rc.toNat + 1) % 4 = 0 then (u.ri.toNat + 1) % 8 else u.ri.toNat := by
  rw [completeStep_rc, completeStep_ri, toNat_advance_ri, toNat_advance_rc]
  exact ⟨rfl, rfl⟩

end WholeStep

/-- Settles O11: a running engine is not halted, and the halt test of its step sees whether the step ends at the origin. -/
theorem stepHaltsOnlyAtTheOrigin : Obligations.StepHaltsOnlyAtTheOrigin := by
  intro s t hrun h
  rw [step_running hrun] at h
  exact busStep_halted_iff hrun h

/-- Settles O12: no transfer writes Rc, so a completed step advances it, and the fault leaves both counters alone. -/
theorem everyCompletedStepMovesOn : Obligations.EveryCompletedStepMovesOn := by
  intro s t hrun h
  rw [step_running hrun] at h
  obtain ⟨-, hnone⟩ := hrun
  obtain ⟨-, -, rfl⟩ | ⟨u, htransfer, rfl⟩ := busStep_next_cases h
  · exact .inr ⟨Option.some_ne_none _, rfl, rfl⟩
  · obtain ⟨hrc, -⟩ := completeStep_counters (destOf ((fetch s).extractLsb' 2 3)) ((fetch s).extractLsb' 0 2) u
    refine .inl ⟨by rw [completeStep_fault, transfers_fault htransfer, hnone], ?_⟩
    rw [hrc, transfers_rc htransfer]

section ComputedJump

variable {s t u : State} {v : Nat}

/-- The end of a step from slot v: the next cycle of v, or the first cycle of the slot after it, where slot 7 ends the run
(R209, R210). -/
theorem finish_from_slot (hri : u.ri.toNat = v % 8) (hhalted : u.halted = false) :
    (u.rc.toNat < 3 → (finish u).ri.toNat = v % 8 ∧ (finish u).rc.toNat = u.rc.toNat + 1 ∧
      (finish u).halted = false) ∧
    (u.rc.toNat = 3 → (finish u).ri.toNat = (v % 8 + 1) % 8 ∧ (finish u).rc.toNat = 0 ∧
      ((finish u).halted = true ↔ v % 8 = 7)) := by
  have hrc' := toNat_advance_rc u
  have hri' := toNat_advance_ri u
  have hend : (finish u).halted = true ↔ u.rc.toNat = 3 ∧ u.ri.toNat = 7 := by
    rw [finish_halted_iff, finish_origin_iff, hhalted]
    simp only [Bool.false_eq_true, false_or, BitVec.toNat_eq, BitVec.ofNat_eq_ofNat, BitVec.toNat_ofNat]
  rw [finish_ri, finish_rc]
  refine ⟨fun hcycle => ⟨?_, ?_, ?_⟩, fun hlast => ⟨?_, ?_, ?_⟩⟩
  · rw [hri', hri, if_neg (by omega)]
  · omega
  · rw [← Bool.not_eq_true, hend]; omega
  · rw [hri', hri, if_pos (by omega)]
  · omega
  · rw [hend, hri]; omega

/-- A write of RI with v, in a state whose other contents do not matter here: the step goes to slot v (R206, R212). -/
theorem jump_targets {o : Result} (ho : o = .next (finish u)) (hri : u.ri = BitVec.ofNat 3 (v % 8))
    (hrc : u.rc = s.rc) (hhalted : u.halted = false) (h : o = .next t) :
    (s.rc.toNat < 3 → t.ri.toNat = v % 8 ∧ t.rc.toNat = s.rc.toNat + 1 ∧ t.halted = false) ∧
    (s.rc.toNat = 3 → t.ri.toNat = (v % 8 + 1) % 8 ∧ t.rc.toNat = 0 ∧ (t.halted = true ↔ v % 8 = 7)) := by
  cases ho.symm.trans h
  have hslot : u.ri.toNat = v % 8 := by
    rw [hri, BitVec.toNat_ofNat]
    exact Nat.mod_mod v 8
  rw [← hrc]
  exact finish_from_slot hslot hhalted

end ComputedJump

/-- Settles O15: each of the six sources ends the step in a state whose RI is v modulo 8; RI from itself is a self-load, which
leaves that value in place. -/
theorem computedJumpTargets : Obligations.ComputedJumpTargets := by
  intro cc s t i v hsource hrun h
  obtain ⟨hhalted, -⟩ := hrun
  obtain ⟨hri, ha, hb, hc⟩ := moveRegisterToRi cc s
  obtain ⟨rfl, rfl⟩ | ⟨rfl, rfl⟩ | ⟨rfl, rfl⟩ | ⟨rfl, rfl⟩ | ⟨rfl, rfl⟩ | ⟨rfl, hresult, e, he, rfl⟩ := hsource
  · exact jump_targets hri (by rw [Nat.mod_eq_of_lt s.ri.isLt, BitVec.ofNat_toNat, BitVec.setWidth_eq]) rfl hhalted h
  · exact jump_targets ha rfl rfl hhalted h
  · exact jump_targets hb rfl rfl hhalted h
  · exact jump_targets hc rfl rfl hhalted h
  · have hready : InputReady s := by
      by_contra hwait
      cases (exec_input_of_not_ready hwait .ri cc).symm.trans h
    obtain ⟨hin, -⟩ := inputToRegister cc s hready
    exact jump_targets hin rfl rfl hhalted h
  · obtain ⟨-, hvalue⟩ := aluResultToRegister cc s
    obtain ⟨x, hx, halu, -⟩ := hvalue hresult
    cases he.symm.trans hx
    exact jump_targets halu rfl rfl hhalted h

section KeepsSlot

variable {src : Source} {dst : Dest} {cc : CmdBits} {s t u : State}

theorem keepsSlot_iff (w : Byte) : keepsSlot w = true ↔
    destOf (w.extractLsb' 2 3) ≠ .ri ∨ sourceOf (w.extractLsb' 5 3) = .ri ∨ sourceOf (w.extractLsb' 5 3) = .s6 ∨
      sourceOf (w.extractLsb' 5 3) = .s7 := by
  simp only [keepsSlot, Bool.or_eq_true, decide_eq_true_eq, or_assoc]

theorem ri_loadRegister (dst : Dest) (v : Nat) (s : State) :
    (loadRegister dst v s).ri = if dst = .ri then BitRegister.parallelLoad 3 v else s.ri := by
  cases dst <;> rfl

/-- RI is delivered to only as a destination other than the source itself (R206). -/
theorem deliver_keeps_ri (h : dst ≠ .ri ∨ src = .ri) (w v : Nat) (s : State) : (deliver src dst w v s).ri = s.ri := by
  by_cases hdst : dst = .ri
  · obtain rfl := h.resolve_left (not_not.2 hdst)
    rw [hdst, deliver_of_selfLoad rfl]
  · exact deliver_keeps (f := State.ri) (fun _ _ => rfl) (fun u => (ri_loadRegister dst v u).trans (if_neg hdst)) s

theorem transfers_keeps_ri (hkeeps : dst ≠ .ri ∨ src = .ri ∨ src = .s6 ∨ src = .s7) (h : Transfers src dst s u) :
    u.ri = s.ri := by
  rcases hkeeps with hdst | rfl | rfl | rfl
  · exact transfers_keeps (fun _ _ _ => rfl) (fun _ => afterInput_ri) (deliver_keeps_ri (.inl hdst)) h
  · exact transfers_keeps (fun _ _ _ => rfl) (fun _ => afterInput_ri) (deliver_keeps_ri (.inr rfl)) h
  · obtain ⟨-, rfl⟩ | ⟨e, w, v, hresolve, -⟩ := h
    · rfl
    · cases hresolve
  · obtain ⟨-, rfl⟩ | ⟨e, w, v, hresolve, -⟩ := h
    · rfl
    · cases hresolve

/-- A completed step that does not write RI goes to the next linear address (R213). -/
theorem romIndex_of_step (hrun : Running s) (hkeeps : keepsSlot (fetch s) = true) (h : step s = .next t)
    (hcompletes : t.fault = none) : romIndex t.ri t.rc = (romIndex s.ri s.rc + 1) % 32 := by
  rw [step_running hrun] at h
  obtain ⟨-, -, rfl⟩ | ⟨u, htransfer, rfl⟩ := busStep_next_cases h
  · cases hcompletes
  · obtain ⟨hrc, hri⟩ := completeStep_counters (destOf ((fetch s).extractLsb' 2 3)) ((fetch s).extractLsb' 0 2) u
    rw [transfers_rc htransfer] at hrc hri
    rw [transfers_keeps_ri ((keepsSlot_iff _).1 hkeeps) htransfer] at hri
    have hrilt := s.ri.isLt
    have hrclt := s.rc.isLt
    rw [romIndex, romIndex, hrc, hri]
    split <;> omega

theorem romIndex_eq_zero_iff (s : State) : romIndex s.ri s.rc = 0 ↔ s.ri = 0 ∧ s.rc = 0 := by
  simp only [romIndex, BitVec.toNat_eq, BitVec.ofNat_eq_ofNat, BitVec.toNat_ofNat]
  omega

end KeepsSlot

/-- No word of the ROM writes RI. -/
def NeverWritesSlot (rom : Memory) : Prop :=
  ∀ ri rc, keepsSlot (romRead rom ri rc) = true

/-- From linear address j, an engine whose ROM never writes RI is at address j + k after k steps, and halted exactly when j + k
passes the last address (R213); by induction on the steps, the first of which moves j by one. -/
theorem run_without_slot_writes {k : Nat} {s t : State} (hrun : Running s) (hrom : NeverWritesSlot s.rom)
    (hk : romIndex s.ri s.rc + k ≤ 32) (h : Host.Core.run Sys2Proof.core k s = .next t) (hcompletes : t.fault = none) :
    romIndex t.ri t.rc = (romIndex s.ri s.rc + k) % 32 ∧ (t.halted = true ↔ romIndex s.ri s.rc + k = 32) := by
  induction k generalizing s with
  | zero =>
    cases h
    have hlt := romIndex_lt t.ri t.rc
    obtain ⟨hhalted, -⟩ := hrun
    rw [hhalted]
    simp only [Nat.add_zero, Bool.false_eq_true, false_iff]
    omega
  | succ k ih =>
    cases hstep : step s with
    | fault f => rw [run_succ_of_fault hstep] at h; cases h
    | refused r => rw [run_succ_of_refused hstep] at h; cases h
    | next u =>
      rw [run_succ_of_next hstep] at h
      have hlt := romIndex_lt s.ri s.rc
      have hnone : u.fault = none := by
        by_contra hfault
        rw [run_stopped ((stopped_iff u).2 (.inr hfault))] at h
        cases h
        exact hfault hcompletes
      have hindex : romIndex u.ri u.rc = (romIndex s.ri s.rc + 1) % 32 :=
        romIndex_of_step hrun (hrom s.ri s.rc) hstep hnone
      have hhalted : u.halted = true ↔ romIndex u.ri u.rc = 0 := by
        rw [romIndex_eq_zero_iff, stepHaltsOnlyAtTheOrigin s u hrun hstep]
        simp only [hnone, true_and]
      by_cases hlast : romIndex u.ri u.rc = 0
      · obtain rfl : k = 0 := by omega
        cases h
        rw [hhalted]
        omega
      · have hrun' : Running u := ⟨Bool.eq_false_iff.2 fun hstops => hlast (hhalted.1 hstops), hnone⟩
        have hrom' : NeverWritesSlot u.rom := by rwa [step_keeps_rom hstep]
        have hsucc : romIndex u.ri u.rc = romIndex s.ri s.rc + 1 := by omega
        have hend := ih hrun' hrom' (by omega) h
        rwa [hsucc, Nat.add_assoc, Nat.add_comm 1 k] at hend

/-- Settles O13: the run of `run_without_slot_writes` that begins at the origin. -/
theorem withoutSlotWritesTheEngineHaltsAfter32Steps : Obligations.WithoutSlotWritesTheEngineHaltsAfter32Steps := by
  intro s t k hrun hri hrc hrom hk h hcompletes
  have horigin : romIndex s.ri s.rc = 0 := (romIndex_eq_zero_iff s).2 ⟨hri, hrc⟩
  have hend := run_without_slot_writes hrun hrom (by omega) h hcompletes
  rwa [horigin, Nat.zero_add] at hend

end Sys2Proof.Machine
end

section
/-! PROOFS. The loader (20_memory.md R64-R67): the lines of an image, the words of its accepted lines, where they are stored, and
how the characters of a line give the bits of its word. -/

namespace Sys2Proof.Machine

section ImageLines

variable {ch : Char} {rest line : List Char} {lines : List (List Char)}

@[simp] theorem imageLines_nil : imageLines [] = [[]] := rfl

/-- A line feed ends an empty line, before the lines of the rest (R67). -/
@[simp] theorem imageLines_lineFeed : imageLines ('\n' :: rest) = [] :: imageLines rest := rfl

/-- Any other character stands at the front of the rest's first line (R67). -/
theorem imageLines_of_ne_lineFeed (h : ch ≠ '\n') (hrest : imageLines rest = line :: lines) :
    imageLines (ch :: rest) = (ch :: line) :: lines := by
  rw [imageLines, if_neg h, hrest]

theorem imageLines_ne_nil (image : List Char) : imageLines image ≠ [] := by
  cases image with
  | nil => exact List.cons_ne_nil _ _
  | cons ch rest =>
    rw [imageLines]
    split
    · exact List.cons_ne_nil _ _
    · split <;> exact List.cons_ne_nil _ _

/-- A character put in front of the first line is put in front of the joined lines. -/
theorem intercalate_cons_first (sep : List Char) (ch : Char) (line : List Char) (lines : List (List Char)) :
    List.intercalate sep ((ch :: line) :: lines) = ch :: List.intercalate sep (line :: lines) := by
  cases lines with
  | nil => rw [List.intercalate_singleton, List.intercalate_singleton]
  | cons next lines => rw [List.intercalate_cons_cons, List.intercalate_cons_cons, List.cons_append, List.cons_append]

/-- Joined by line feeds, the lines are the image: no character is lost (R67, decision D17). -/
theorem intercalate_imageLines (image : List Char) : List.intercalate ['\n'] (imageLines image) = image := by
  induction image with
  | nil => rfl
  | cons ch rest ih =>
    by_cases hfeed : ch = '\n'
    · rw [hfeed, imageLines_lineFeed, List.intercalate_cons_of_ne_nil (imageLines_ne_nil rest), ih]
      rfl
    · obtain ⟨line, lines, hrest⟩ := List.exists_cons_of_ne_nil (imageLines_ne_nil rest)
      rw [imageLines_of_ne_lineFeed hfeed hrest, intercalate_cons_first, ← hrest, ih]

theorem lineFeed_not_mem_imageLines (image : List Char) : ∀ line ∈ imageLines image, '\n' ∉ line := by
  induction image with
  | nil => simp only [imageLines_nil, List.mem_singleton, forall_eq, List.not_mem_nil, not_false_eq_true]
  | cons ch rest ih =>
    by_cases hfeed : ch = '\n'
    · rw [hfeed, imageLines_lineFeed, List.forall_mem_cons]
      exact ⟨List.not_mem_nil, ih⟩
    · obtain ⟨line, lines, hrest⟩ := List.exists_cons_of_ne_nil (imageLines_ne_nil rest)
      rw [hrest, List.forall_mem_cons] at ih
      obtain ⟨hline, hlines⟩ := ih
      rw [imageLines_of_ne_lineFeed hfeed hrest, List.forall_mem_cons, List.mem_cons, not_or]
      exact ⟨⟨Ne.symm hfeed, hline⟩, hlines⟩

end ImageLines

section AcceptedWords

variable {line : List Char} {lines : List (List Char)} {w : Byte}

theorem acceptedWords_cons_of_accepted (h : lineKind line = .accepted w) :
    acceptedWords (line :: lines) = w :: acceptedWords lines := by
  simp only [acceptedWords, List.filterMap_cons, h]

theorem acceptedWords_cons_of_ignored (h : lineKind line = .ignored) :
    acceptedWords (line :: lines) = acceptedWords lines := by
  simp only [acceptedWords, List.filterMap_cons, h]

theorem acceptedWords_cons_of_skipped (h : lineKind line = .skipped) :
    acceptedWords (line :: lines) = acceptedWords lines := by
  simp only [acceptedWords, List.filterMap_cons, h]

/-- The words are those of the lines that are neither ignored nor skipped, in order (R64, R65). -/
theorem map_accepted_acceptedWords (lines : List (List Char)) : (acceptedWords lines).map LineKind.accepted =
    (lines.map lineKind).filter fun k => decide (k ≠ .ignored) && decide (k ≠ .skipped) := by
  induction lines with
  | nil => rfl
  | cons line lines ih =>
    rw [List.map_cons]
    cases hkind : lineKind line with
    | ignored => rw [acceptedWords_cons_of_ignored hkind, ih, List.filter_cons_of_neg (by decide)]
    | skipped => rw [acceptedWords_cons_of_skipped hkind, ih, List.filter_cons_of_neg (by decide)]
    | accepted w => rw [acceptedWords_cons_of_accepted hkind, List.map_cons, ih, List.filter_cons_of_pos rfl]

end AcceptedWords

section StoreWords

variable {m : Memory} {n i : Nat}

/-- Storing from an index on leaves the indices below it alone. -/
theorem read_storeWords_below (words : List Byte) (hm : m.wf = true) (hi : i < n) :
    Memory.read (storeWords words n m) i = Memory.read m i := by
  induction words generalizing n m with
  | nil => rfl
  | cons w rest ih =>
    rw [storeWords]
    split
    · rw [ih (Memory.wf_write hm ‹n < 32› w) (by omega), Memory.read_write hm, if_neg (by omega)]
    · rfl

/-- Storing from index n on puts word number i - n at index i, and leaves the indices past the last word alone (R64). -/
theorem read_storeWords (words : List Byte) (hm : m.wf = true) (hn : n ≤ i) (hi : i < 32) :
    Memory.read (storeWords words n m) i = words.getD (i - n) (Memory.read m i) := by
  induction words generalizing n m with
  | nil => rfl
  | cons w rest ih =>
    have hwf : (Memory.write m n w).wf = true := Memory.wf_write hm (by omega) w
    rw [storeWords, if_pos (by omega)]
    obtain rfl | hlater := Nat.eq_or_lt_of_le hn
    · rw [read_storeWords_below rest hwf (Nat.lt_succ_self n), Memory.read_write hm, if_pos rfl, Nat.sub_self,
        List.getD_cons_zero]
    · have hindex : i - n = i - (n + 1) + 1 := by omega
      rw [ih hwf hlater, Memory.read_write hm, if_neg (by omega), hindex, List.getD_cons_succ]

end StoreWords

/-- Settles O51: the lines of the image, their accepted words, and the words as the ROM stores them from index 0 on. -/
theorem loaderStoresTheNthAcceptedLine : Obligations.LoaderStoresTheNthAcceptedLine := by
  refine ⟨fun image => ⟨imageLines_ne_nil image, intercalate_imageLines image, lineFeed_not_mem_imageLines image⟩,
    map_accepted_acceptedWords, fun _ _ => rfl, fun image s ri rc => ?_⟩
  exact read_storeWords (m := []) (acceptedWords (imageLines image)) rfl (Nat.zero_le _) (romIndex_lt ri rc)

section BinaryValue

/-- One more digit at the end doubles the value (R66). -/
theorem binaryValue_append_singleton (line : List Char) (ch : Char) :
    binaryValue (line ++ [ch]) = 2 * binaryValue line + (if ch = '1' then 1 else 0) := by
  rw [binaryValue, List.foldl_append]
  rfl

/-- The character p from the front has the weight of the characters behind it (R66): its bit stands at distance p below the top. -/
theorem testBit_binaryValue (line : List Char) {p : Nat} (hp : p < line.length) :
    (binaryValue line).testBit (line.length - 1 - p) = true ↔ line.getD p '0' = '1' := by
  induction line using List.reverseRecOn with
  | nil => cases hp
  | append_singleton line ch ih =>
    rw [List.length_append, List.length_singleton, Nat.lt_succ_iff] at hp
    rw [binaryValue_append_singleton, List.length_append, List.length_singleton, Nat.add_sub_cancel]
    obtain rfl | hbefore := Nat.eq_or_lt_of_le hp
    · rw [Nat.sub_self, Nat.testBit_zero, List.getD_append_right _ _ _ _ (Nat.le_refl _), Nat.sub_self,
        List.getD_cons_zero, decide_eq_true_eq]
      split
      case isTrue hone => simp only [hone, iff_true]; omega
      case isFalse hzero => simp only [hzero, iff_false]; omega
    · have hbit : line.length - p = line.length - 1 - p + 1 := by omega
      have hhalf : (2 * binaryValue line + (if ch = '1' then 1 else 0)) / 2 = binaryValue line := by
        rw [Nat.mul_add_div Nat.two_pos]
        split <;> rfl
      rw [hbit, Nat.testBit_succ, hhalf, ih hbefore, List.getD_append _ _ _ _ hbefore]

end BinaryValue

/-- Settles O53: an accepted line has 8 characters, so character p is bit 7 - p of its value, which fits the word. -/
theorem acceptedLineReadsAsABinaryNumber : Obligations.AcceptedLineReadsAsABinaryNumber := by
  intro line w hkind p hp
  obtain ⟨⟨hlength, -⟩, rfl⟩ := (lineKind_eq_accepted_iff line w).1 hkind
  have hbit := testBit_binaryValue line (hlength.symm ▸ hp)
  rw [hlength] at hbit
  rw [BitVec.getLsbD_ofNat, decide_eq_true (by omega : 7 - p < 8), Bool.true_and]
  exact hbit

end Sys2Proof.Machine
end

section
/-! PROOFS. The engine seen from outside: the reset state and the reset request (70_reset_and_hazards.md R370, R371, R373), the
four conditions (60_exceptions.md R356), and the checked bit access of a register (40_bitregister.md R125). -/

namespace Sys2Proof.Machine

/-- Settles O54, field by field; an empty ROM reads as zero words. -/
theorem resetStateValues : Obligations.ResetStateValues :=
  ⟨rfl, rfl, rfl, rfl, rfl, rfl, rfl, rfl, rfl, rfl, rfl, rfl, rfl, rfl, rfl, rfl, fun _ _ => rfl⟩

/-- After a reset request the guard is open (R371). -/
theorem running_resetRequest (s : State) : Running (resetRequest s) :=
  ⟨resetRequest_halted s, resetRequest_fault s⟩

/-- After a reset request the next word is that of the origin, in the ROM that was loaded (R373). -/
theorem fetch_resetRequest (s : State) : fetch (resetRequest s) = romRead s.rom 0 0 := rfl

/-- Settles O55: the request writes reset values, and the open guard lets the next step execute the word it fetches. -/
theorem resetRequestRestoresAllButTheRom : Obligations.ResetRequestRestoresAllButTheRom := by
  intro s
  refine ⟨running_resetRequest s, resetRequest_rom s, rfl, resetRequest_output s, resetRequest_gpWidth s,
    resetRequest_logicTable s, ?_⟩
  rw [step_eq_exec_fetched (running_resetRequest s), fetch_resetRequest]

section Condition

variable {s t : State}

/-- The next step reads the input, and no answer is listed or to come (R343). -/
def AwaitsInput (s : State) : Prop :=
  sourceOf ((fetch s).extractLsb' 5 3) = .input ∧ s.inputs = [] ∧ s.supplyEnds = true

theorem step_of_awaitsInput (hrun : Running s) (h : AwaitsInput s) : step s = .fault .waitsForInput := by
  obtain ⟨hsrc, hnone⟩ := h
  rw [step_running hrun, hsrc]
  exact busStep_of_ends (resolve_input_of_not_ready (not_inputReady_iff.2 hnone))

/-- Waiting for the input is all that keeps a running engine from a next state (R341). -/
theorem exists_step_of_not_awaitsInput (hrun : Running s) (h : ¬ AwaitsInput s) : ∃ t, step s = .next t := by
  obtain ⟨hsrc, hwait, -⟩ | hnext := step_running_outcomes hrun
  · exact absurd ⟨hsrc, not_inputReady_iff.1 hwait⟩ h
  · exact hnext

theorem condition_of_fault (h : s.fault ≠ none) : condition s = .faulted :=
  if_pos (Option.isSome_iff_ne_none.2 h)

theorem condition_of_halted (hnone : s.fault = none) (h : s.halted = true) : condition s = .halted := by
  simp only [condition, hnone, h, Option.isSome_none, Bool.false_eq_true, if_false, if_true]

theorem condition_of_next (hrun : Running s) (h : step s = .next t) : condition s = .running := by
  obtain ⟨hhalted, hnone⟩ := hrun
  simp only [condition, hnone, hhalted, h, Option.isSome_none, Bool.false_eq_true, if_false]

theorem condition_of_waits (hrun : Running s) (h : step s = .fault .waitsForInput) :
    condition s = .waitingForInput := by
  obtain ⟨hhalted, hnone⟩ := hrun
  simp only [condition, hnone, hhalted, h, Option.isSome_none, Bool.false_eq_true, if_false]

/-- The four conditions are the four cases of a state, which exclude each other (R356). -/
theorem condition_cases (s : State) :
    (s.fault ≠ none ∧ condition s = .faulted) ∨
    (s.fault = none ∧ s.halted = true ∧ condition s = .halted) ∨
    (Running s ∧ AwaitsInput s ∧ step s = .fault .waitsForInput ∧ condition s = .waitingForInput) ∨
    (Running s ∧ ¬ AwaitsInput s ∧ (∃ t, step s = .next t) ∧ condition s = .running) := by
  by_cases hnone : s.fault = none
  · cases hhalted : s.halted with
    | true => exact .inr (.inl ⟨hnone, rfl, condition_of_halted hnone hhalted⟩)
    | false =>
      have hrun : Running s := ⟨hhalted, hnone⟩
      by_cases hawaits : AwaitsInput s
      · have hstep := step_of_awaitsInput hrun hawaits
        exact .inr (.inr (.inl ⟨hrun, hawaits, hstep, condition_of_waits hrun hstep⟩))
      · obtain ⟨t, hstep⟩ := exists_step_of_not_awaitsInput hrun hawaits
        exact .inr (.inr (.inr ⟨hrun, hawaits, ⟨t, hstep⟩, condition_of_next hrun hstep⟩))
  · exact .inl ⟨hnone, condition_of_fault hnone⟩

end Condition

/-- Settles O56: in each of the four cases the condition is known, and the tests of the other three fail. -/
theorem conditionOfEveryState : Obligations.ConditionOfEveryState := by
  intro s
  have hawaits : AwaitsInput s ↔
      sourceOf ((fetch s).extractLsb' 5 3) = .input ∧ s.inputs = [] ∧ s.supplyEnds = true := Iff.rfl
  rw [← hawaits]
  obtain ⟨hfault, hcond⟩ | ⟨hnone, hhalted, hcond⟩ | ⟨⟨hhalted, hnone⟩, hwaits, hstep, hcond⟩ |
    ⟨⟨hhalted, hnone⟩, hruns, hnext, hcond⟩ := condition_cases s
  · simp [hcond, hfault, Running]
  · simp [hcond, hnone, hhalted, Running]
  · simp [hcond, hnone, hhalted, Running, hwaits, hstep]
  · simp [hcond, hnone, hhalted, Running, hruns, hnext]

section BitAccess

variable {w : Nat} (x : BitVec w) {i : Nat} (b : Bool)

theorem get_of_lt (h : i < w) : BitRegister.get x i = some (x.getLsbD i) := if_pos h

theorem get_of_ge (h : w ≤ i) : BitRegister.get x i = none := if_neg (Nat.not_lt.2 h)

theorem set_of_ge (h : w ≤ i) : BitRegister.set x i b = none := if_neg (Nat.not_lt.2 h)

/-- A write inside the register replaces the one bit (R125). -/
theorem exists_set_of_lt (h : i < w) :
    ∃ y, BitRegister.set x i b = some y ∧ ∀ j, j < w → y.getLsbD j = if j = i then b else x.getLsbD j := by
  refine ⟨_, if_pos h, fun j hj => ?_⟩
  rw [BitVec.getLsbD_ofFnLE, dif_pos hj]

end BitAccess

/-- Settles O60: below the width the access is made, from the width on it is refused. -/
theorem bitAccessIsCheckedAgainstTheWidth : Obligations.BitAccessIsCheckedAgainstTheWidth := fun _ x _ b =>
  ⟨fun hout => ⟨get_of_ge x hout, set_of_ge x b hout⟩, fun hin => ⟨get_of_lt x hin, exists_set_of_lt x b hin⟩⟩

end Sys2Proof.Machine
end
